-- ==== Sys2Proof/Word.lean ====
section
/-! DEFINITION. The words of the part: bytes of a frame, 16-bit angles and counters, and the fixed-size
collections (two motion links, three links, four link slots, six channels) that the blocks are built from. -/

namespace Sys2Proof

/-- One byte of a frame (R121). -/
abbrev Byte := BitVec 8

/-- A 16-bit quantity that wraps: the electrical angle (00_scope, units) and the frame mark counter (R24). -/
abbrev Word16 := BitVec 16

/-- A raw converter value, 0 to 4095 (R39). -/
abbrev Raw := Fin 4096

/-- A physical channel, CH0 to CH5. -/
abbrev Channel := Fin 6

/-- A carrier slot, 0 to 5 (R30). -/
abbrev CarrierSlot := Fin 6

/-- A link slot of a motion link, 0 to 3. -/
abbrev LinkSlot := Fin 4

/-- One item for each of the six channels (or carrier slots). -/
structure Six (α : Type) where
  c0 : α
  c1 : α
  c2 : α
  c3 : α
  c4 : α
  c5 : α
deriving DecidableEq, Repr

/-- The item of index `i`. -/
def Six.get {α : Type} (v : Six α) (i : Fin 6) : α :=
  match i with
  | 0 => v.c0
  | 1 => v.c1
  | 2 => v.c2
  | 3 => v.c3
  | 4 => v.c4
  | 5 => v.c5

/-- `v` with the item of index `i` replaced. -/
def Six.set {α : Type} (v : Six α) (i : Fin 6) (x : α) : Six α :=
  match i with
  | 0 => { v with c0 := x }
  | 1 => { v with c1 := x }
  | 2 => { v with c2 := x }
  | 3 => { v with c3 := x }
  | 4 => { v with c4 := x }
  | 5 => { v with c5 := x }

/-- The same item six times. -/
def Six.all {α : Type} (x : α) : Six α := ⟨x, x, x, x, x, x⟩

/-- The six items of a function of the index. -/
def Six.ofFn {α : Type} (f : Fin 6 → α) : Six α := ⟨f 0, f 1, f 2, f 3, f 4, f 5⟩

/-- The six items in ascending order of the index. -/
def Six.toList {α : Type} (v : Six α) : List α := [v.c0, v.c1, v.c2, v.c3, v.c4, v.c5]

/-- One item for each of the four link slots of a motion link. -/
structure Four (α : Type) where
  s0 : α
  s1 : α
  s2 : α
  s3 : α
deriving DecidableEq, Repr

/-- The item of index `i`. -/
def Four.get {α : Type} (v : Four α) (i : Fin 4) : α :=
  match i with
  | 0 => v.s0
  | 1 => v.s1
  | 2 => v.s2
  | 3 => v.s3

/-- `v` with the item of index `i` replaced. -/
def Four.set {α : Type} (v : Four α) (i : Fin 4) (x : α) : Four α :=
  match i with
  | 0 => { v with s0 := x }
  | 1 => { v with s1 := x }
  | 2 => { v with s2 := x }
  | 3 => { v with s3 := x }

/-- The same item four times. -/
def Four.all {α : Type} (x : α) : Four α := ⟨x, x, x, x⟩

/-- The four items in ascending order of the index. -/
def Four.toList {α : Type} (v : Four α) : List α := [v.s0, v.s1, v.s2, v.s3]

/-- The six channels in ascending order. -/
def channels : List Channel := [0, 1, 2, 3, 4, 5]

/-- The four link slots in ascending order. -/
def linkSlots : List LinkSlot := [0, 1, 2, 3]

end Sys2Proof
end

