-- ==== Sys2Proof/Syntax.lean ====
section
/-! DEFINITION. The commands of the part: one constructor for each row of spec/opcode_table.json. The table gives the
rows no operands; the operands here are what each rule needs from outside (log 1): a channel, raw converter samples, line
levels, or the link and the payload bytes of the frame that carries a request. -/

namespace Sys2Proof

/-- The three links (07, introduction). -/
inductive Link where
  | a
  | b
  | s
deriving DecidableEq, Repr

/-- The two motion links, which alone hold claims, slot maps and batches (R134, R147). -/
inductive Motion where
  | a
  | b
deriving DecidableEq, Repr

/-- The motion link of a link, when it is one. -/
def Link.motion : Link → Option Motion
  | .a => some .a
  | .b => some .b
  | .s => none

/-- A motion link as one of the three links. -/
def Motion.link : Motion → Link
  | .a => .a
  | .b => .b

/-- One item for each of the three links. -/
structure Three (α : Type) where
  a : α
  b : α
  s : α
deriving DecidableEq, Repr

/-- The item of link `l`. -/
def Three.get {α : Type} (v : Three α) : Link → α
  | .a => v.a
  | .b => v.b
  | .s => v.s

/-- `v` with the item of link `l` replaced. -/
def Three.set {α : Type} (v : Three α) (l : Link) (x : α) : Three α :=
  match l with
  | .a => { v with a := x }
  | .b => { v with b := x }
  | .s => { v with s := x }

/-- The same item three times. -/
def Three.all {α : Type} (x : α) : Three α := ⟨x, x, x⟩

/-- One item for each of the two motion links. -/
structure Two (α : Type) where
  a : α
  b : α
deriving DecidableEq, Repr

/-- The item of motion link `m`. -/
def Two.get {α : Type} (v : Two α) : Motion → α
  | .a => v.a
  | .b => v.b

/-- `v` with the item of motion link `m` replaced. -/
def Two.set {α : Type} (v : Two α) (m : Motion) (x : α) : Two α :=
  match m with
  | .a => { v with a := x }
  | .b => { v with b := x }

/-- The same item twice. -/
def Two.all {α : Type} (x : α) : Two α := ⟨x, x⟩

/-- A leg of a channel (00_scope, terms). -/
inductive Leg where
  | a
  | b
  | c
deriving DecidableEq, Repr

/-- A phase with a current converter (R39). -/
inductive Phase where
  | a
  | b
deriving DecidableEq, Repr

/-- Which comes first when the sample of a valley raises a cause: the manual lets the cause and the start of that
valley's computation come in either order (R21; log 4). -/
inductive ValleyOrder where
  | startFirst
  | causeFirst
deriving DecidableEq, Repr

/-- The commands, one constructor for each row of spec/opcode_table.json. -/
inductive Instr where
  /-- FULL_RESET (R2, R120): power-on or RESET held low. -/
  | fullReset
  /-- RESET_END (R2): the full reset ends; the levels found there are TEN high or low, the active BFLT lines, and the
  select lines that are low. -/
  | resetEnd (tenHigh : Bool) (bfltActive : Six Bool) (selectLow : Three Bool)
  /-- FRAME_MARK (R24): the raw DC-link sample of the frame mark (R39), and how many of the commands after it belong to the
  same instant and come before the bus unit's operation (R84, R107; log 4). -/
  | frameMark (rawBus : Raw) (before : Nat)
  /-- BUS_UV (R89). -/
  | busUv
  /-- CHOPPER_BLOCKED (R106). -/
  | chopperBlocked
  /-- CHOPPER_RESTORED (R106). -/
  | chopperRestored
  /-- BRK_ON_TIME_END (R104). -/
  | brkOnTimeEnd
  /-- VALLEY (R25): the channel whose valley it is and its two raw samples. -/
  | valley (ch : Channel) (rawA rawB : Raw) (order : ValleyOrder)
  /-- OVERCURRENT (R53). -/
  | overcurrent (ch : Channel)
  /-- SAMPLE_LOSS (R51). -/
  | sampleLoss (ch : Channel)
  /-- CAPTURE_END (R7, R8). -/
  | captureEnd (ch : Channel)
  /-- OFFSET_STEP (R47): one phase. -/
  | offsetStep (ch : Channel) (phase : Phase)
  /-- RECAPTURE (R49). -/
  | recapture (ch : Channel)
  /-- COMPUTATION_COMPLETE (R59). -/
  | computationComplete (ch : Channel)
  /-- PEAK_EXHAUSTED (R66). -/
  | peakExhausted (ch : Channel)
  /-- HOLD_ENTRY (R11). -/
  | holdEntry (ch : Channel)
  /-- SETPOINT_TIMEOUT (R13). -/
  | setpointTimeout (ch : Channel)
  /-- LEG_EDGE (R33): the next edge of a leg. -/
  | legEdge (ch : Channel) (leg : Leg)
  /-- BFLT_ACTIVE (R54). -/
  | bfltActive (ch : Channel)
  /-- BFLT_INACTIVE (R55). -/
  | bfltInactive (ch : Channel)
  /-- TEN_FALL (R110). -/
  | tenFall
  /-- TEN_RISE (R111). -/
  | tenRise
  /-- FRAME_START (R122): select falls. -/
  | frameStart (link : Link)
  /-- FRAME_ERROR (R124): select rises after `bytes`; `lastWhole` says that the last byte was clocked whole. -/
  | frameError (link : Link) (bytes : List Byte) (lastWhole : Bool)
  /-- NOP (R129). -/
  | nop (link : Link) (payload : List Byte)
  /-- LINK_RESET (R132). -/
  | linkReset (link : Link) (payload : List Byte)
  /-- STATUS (R178 to R180). -/
  | status (link : Link) (payload : List Byte)
  /-- EVENTS (R188). -/
  | events (link : Link) (payload : List Byte)
  /-- READ (R185). -/
  | read (link : Link) (payload : List Byte)
  /-- ACK (R182, R183). -/
  | ack (link : Link) (payload : List Byte)
  /-- CLAIM (R135). -/
  | claim (link : Link) (payload : List Byte)
  /-- RELEASE (R137). -/
  | release (link : Link) (payload : List Byte)
  /-- MAP (R139, R140). -/
  | map (link : Link) (payload : List Byte)
  /-- UNMAP (R141). -/
  | unmap (link : Link) (payload : List Byte)
  /-- REVOKE (R142). -/
  | revoke (link : Link) (payload : List Byte)
  /-- PARAM_SENSE (R166): the channel byte and the bytes after the group code. -/
  | paramSense (link : Link) (chByte : Byte) (fields : List Byte)
  /-- PARAM_TRACK (R50). -/
  | paramTrack (link : Link) (chByte : Byte) (fields : List Byte)
  /-- PARAM_LOOP (R167). -/
  | paramLoop (link : Link) (chByte : Byte) (fields : List Byte)
  /-- PARAM_LIMITS (R170). -/
  | paramLimits (link : Link) (chByte : Byte) (fields : List Byte)
  /-- PARAM_PROTECT (R169). -/
  | paramProtect (link : Link) (chByte : Byte) (fields : List Byte)
  /-- PARAM_HOLD (R168). -/
  | paramHold (link : Link) (chByte : Byte) (fields : List Byte)
  /-- CEILING (R172). -/
  | ceiling (link : Link) (payload : List Byte)
  /-- ENABLE (R4, R5). -/
  | enable (link : Link) (payload : List Byte)
  /-- DISABLE (R16). -/
  | disable (link : Link) (payload : List Byte)
  /-- SET with END clear (R151): the ignored bits 7 to 1 of the flag byte and the bytes after it. -/
  | set (link : Link) (ignored : BitVec 7) (records : List Byte)
  /-- SET with END set (R153): the ignored bits 7 to 1 of the flag byte and the bytes after it. -/
  | setEnd (link : Link) (ignored : BitVec 7) (records : List Byte)
  /-- DISCARD (R160). -/
  | discard (link : Link) (payload : List Byte)
  /-- TIMING (R26 to R29). -/
  | timing (link : Link) (payload : List Byte)
  /-- SLOT (R31). -/
  | slot (link : Link) (payload : List Byte)
  /-- BUS (R90). -/
  | bus (link : Link) (payload : List Byte)
  /-- BUDGET (R91). -/
  | budget (link : Link) (payload : List Byte)
  /-- CLASS (R92). -/
  | classes (link : Link) (payload : List Byte)
  /-- WITHDRAW (R112). -/
  | withdraw (link : Link) (payload : List Byte)
  /-- RESTORE (R113). -/
  | restore (link : Link) (payload : List Byte)
  /-- EDGE_CLEAR (R114). -/
  | edgeClear (link : Link) (payload : List Byte)
  /-- IGNORED_FRAME_END (R120). -/
  | ignoredFrameEnd (link : Link)
deriving DecidableEq, Repr

end Sys2Proof
end

