-- ==== Sys2Proof/Decode.lean ====
section
/-! DEFINITION. No row of spec/opcode_table.json gives a command any bits: a command is an operation of a link or an event,
not a word. So no word spells one (log 14). -/

namespace Sys2Proof

/-- The command that the word `w` of `nbits` bits spells by the table's bits: none, for the table gives no row any. -/
def decodeTableWord (_nbits _w : Nat) : Option Instr := none

end Sys2Proof
end

