-- ==== Sys2Proof/Config.lean ====
section
/-! DEFINITION. What the manual fixes for every part: capacities, the ranges to which written values are
clamped (R127), and the fixed factors of the arithmetic. The manual leaves no value of the part's results open, so
there is no free value here. -/

namespace Sys2Proof.Config

/-- Largest payload of a frame, in bytes (R121, R124 check 2). -/
def maxPayload : Nat := 60

/-- Entries an event queue holds (R186). -/
def queueCapacity : Nat := 12

/-- Entries one EVENTS removes at most (R188). -/
def eventsPerReply : Nat := 8

/-- Records an open batch holds (R147, R149). -/
def batchCapacity : Nat := 8

/-- Valid samples of a capture (R7). -/
def captureSamples : Nat := 64

/-- The raw value about which the offsets lie (R43). -/
def offsetCentre : Int := 2048

/-- Bound of a current stored or reported in 16 bits (R1). -/
def currentMax : Int := 32767

/-- Range of the carrier period (R26). -/
def periodMin : Nat := 2400
/-- Range of the carrier period (R26). -/
def periodMax : Nat := 24000
/-- Upper bound of the blanking half-width (R26). -/
def blankMax : Nat := 600
/-- Upper bound of the SYNC divider (R26). -/
def dividerMax : Nat := 16

/-- Upper bound of Vdc, OV and UV, in decivolts (R87, R90). -/
def vdcMax : Nat := 9000
/-- Upper bound of UVH (5.1). -/
def uvhMax : Nat := 1000
/-- Upper bound of F and Rg (5.1). -/
def supplyMax : Nat := 400000
/-- Upper bound of Cap and Cool (5.1). -/
def chopperMax : Nat := 200000
/-- Upper bound of Hmax (5.1). -/
def heatLimitMax : Nat := 2147483648
/-- Upper bound of the heat H (R105). -/
def heatMax : Nat := 4294967295

/-- A grant scale of 1.0 in Q12 (R65). -/
def fullScale : Nat := 4096

/-- 1/sqrt 3 in Q15 (R69, R74). -/
def invSqrt3 : Int := 18919
/-- sqrt 3 / 2 in Q15 (R77). -/
def halfSqrt3 : Int := 28378
/-- Least Vdc a computation uses, in decivolts (R74). -/
def vdcFloor : Nat := 100

end Sys2Proof.Config
end

