-- ==== Sys2Proof/Machine/State.lean ====
section
/-! DEFINITION. The state of the part, block by block as the manual names them, and the state right after reset. All of it
is plain data. -/

namespace Sys2Proof.Machine

/-! ### Names -/

/-- The six channel states (R3). -/
inductive ChState where
  | off
  | capture
  | run
  | hold
  | fault
  | safeOff
deriving DecidableEq, Repr

/-- The eight causes, in order of priority (R176). -/
inductive Cause where
  | bridge
  | overcurrent
  | busOv
  | busUv
  | sampleLoss
  | offsetRange
  | setpointTimeout
  | partner
deriving DecidableEq, Repr

/-- A set of causes, each at most once (R176). -/
structure CauseSet where
  bridge : Bool
  overcurrent : Bool
  busOv : Bool
  busUv : Bool
  sampleLoss : Bool
  offsetRange : Bool
  setpointTimeout : Bool
  partner : Bool
deriving DecidableEq, Repr

/-- The empty set of causes. -/
def CauseSet.empty : CauseSet := ⟨false, false, false, false, false, false, false, false⟩

/-- The event kinds (R189). -/
inductive EventKind where
  | faultRaised
  | stateEntered
  | sampleDropped
  | offsetRecaptured
  | budgetLimited
  | budgetReleased
  | peakExhausted
  | prefixDropped
  | batchLost
  | claimRevoked
  | torqueDrop
  | chopperBlocked
  | chopperRestored
deriving DecidableEq, Repr

/-- The detail of an event (R186). -/
inductive Detail where
  | none
  | cause (c : Cause)
  | entered (st : ChState)
deriving DecidableEq, Repr

/-- An entry of an event queue (R186). -/
structure QueueEntry where
  kind : EventKind
  channel : Option Channel
  detail : Detail
  count : Nat
  stamp : Word16
deriving DecidableEq, Repr

/-- The request kinds of both request sets (7.6, 12.2). -/
inductive Kind where
  | nop
  | linkReset
  | status
  | events
  | read
  | ack
  | claim
  | release
  | map
  | unmap
  | param
  | enable
  | disable
  | set
  | discard
  | budget
  | bus
  | classes
  | ceiling
  | timing
  | slot
  | withdraw
  | restore
  | edgeClear
  | revoke
deriving DecidableEq, Repr

/-- The refusal reasons of a request (R126). -/
inductive Reason where
  | wrongLink
  | badValue
  | notHeld
  | heldElsewhere
  | slotBound
  | slotUnbound
  | channelActive
  | paramsIncomplete
  | budgetUnset
  | busLow
  | torqueWithdrawn
  | faultPresent
  | batchFull
  | notAllOff
  | lineLow
deriving DecidableEq, Repr

/-- The subcodes of a FRAME_ERROR reply (R124). -/
inductive Subcode where
  | length
  | crc
  | kind
deriving DecidableEq, Repr

/-- The four reply kinds (R125). -/
inductive ReplyKind where
  | done
  | refused
  | frameError
  | empty
deriving DecidableEq, Repr

/-! ### Link interfaces (7.1) -/

/-- The reply buffer: kind, payload and CRC (7.1). -/
structure Reply where
  kind : ReplyKind
  payload : List Byte
  crc : Byte
deriving DecidableEq, Repr

/-- The frame receive logic: idle, in a frame with the bytes clocked so far, or ignoring the bytes of a frame that a
full reset found already begun (R120). -/
inductive Rx where
  | idle
  | inFrame (bytes : List Byte)
  | ignoring
deriving DecidableEq, Repr

/-- One link interface. `shiftOut` holds the reply that data out shifts in the present frame, and is absent while data out is
in high impedance; `lastOut` holds what data out shifted in the last frame that ended (R122; log 23). -/
structure LinkIf where
  rx : Rx
  shiftOut : Option (List Byte)
  lastOut : List Byte
  reply : Reply
  queue : List QueueEntry
  overrun : Bool
  attention : Bool
deriving DecidableEq, Repr

/-- One angle block of a setpoint record (9.1). -/
structure AngleBlock where
  theta : Word16
  dTheta : Int
deriving DecidableEq, Repr

/-- A record of an open batch (9.1): a SET record with its link slot, references and angle blocks, or a PEAK record. -/
inductive Record where
  | set (slot : LinkSlot) (idRef iqRef : Int) (blocks : List AngleBlock)
  | peak
deriving DecidableEq, Repr

/-! ### Binding unit (8.1) -/

/-- A member of a link slot: channel and reversed mark. -/
structure Member where
  ch : Channel
  reversed : Bool
deriving DecidableEq, Repr

/-- An entry of a slot map: an ordered list of one or two members. -/
structure SlotEntry where
  first : Member
  second : Option Member
deriving DecidableEq, Repr

/-- A slot map: four link slots, each unbound or bound to an entry. -/
abbrev SlotMap := Four (Option SlotEntry)

/-- The binding unit. -/
structure Binding where
  holders : Six (Option Motion)
  maps : Two SlotMap
  toggles : Two Bool
deriving DecidableEq, Repr

/-! ### Channel contexts (1.1, 10.1) -/

/-- A pending setpoint (R156). -/
structure Setpoint where
  idRef : Int
  iqRef : Int
  theta : Word16
  dTheta : Int
  peak : Bool
  fresh : Bool
deriving DecidableEq, Repr

/-- The four limit flags (R75). -/
structure LimitFlags where
  dHigh : Bool
  dLow : Bool
  qHigh : Bool
  qLow : Bool
deriving DecidableEq, Repr

/-- No axis limited. -/
def LimitFlags.clear : LimitFlags := ⟨false, false, false, false⟩

/-- A measurement: phase currents and currents of the rotating frame (R70). -/
structure Measurement where
  ia : Int
  ib : Int
  id : Int
  iq : Int
deriving DecidableEq, Repr

/-- The measurement of all zeros. -/
def Measurement.zero : Measurement := ⟨0, 0, 0, 0⟩

/-- The on-times of the three legs, in ticks (R33). -/
structure OnTimes where
  a : Nat
  b : Nat
  c : Nat
deriving DecidableEq, Repr

/-- On-times of 0 on all three legs. -/
def OnTimes.zero : OnTimes := ⟨0, 0, 0⟩

/-- The computation record (R81). -/
structure CompRecord where
  state : ChState
  valid : Bool
  meas : Measurement
  idRef : Int
  iqEff : Int
  vd : Int
  vq : Int
  flags : LimitFlags
  onTimes : OnTimes
  demand : Int
  power : Int
  scale : Nat
  allowance : Nat
  theta : Word16
deriving DecidableEq, Repr

/-- SENSE group (10.1). -/
structure SenseGroup where
  gA : Nat
  gB : Nat
  ro : Nat
deriving DecidableEq, Repr

/-- TRACK group (10.1). -/
structure TrackGroup where
  wt : Nat
  bt : Nat
  nx : Nat
  q : Nat
deriving DecidableEq, Repr

/-- LOOP group (10.1). -/
structure LoopGroup where
  kpD : Nat
  kiD : Nat
  kpQ : Nat
  kiQ : Nat
deriving DecidableEq, Repr

/-- LIMITS group (10.1). -/
structure LimitsGroup where
  icont : Nat
  ipk : Nat
  idMax : Nat
  mlim : Nat
  amax : Nat
deriving DecidableEq, Repr

/-- PROTECT group (10.1). -/
structure ProtectGroup where
  itrip : Nat
  ih : Nat
  dt : Nat
  dl : Nat
deriving DecidableEq, Repr

/-- HOLD group (10.1). -/
structure HoldGroup where
  ts : Nat
  rs : Nat
  th : Nat
deriving DecidableEq, Repr

/-- The loaded marks of the six groups (R162). -/
structure Marks where
  sense : Bool
  track : Bool
  loop : Bool
  limits : Bool
  protect : Bool
  hold : Bool
deriving DecidableEq, Repr

/-- A computation in flight: the inputs it took at its start (R58). `sample` holds the converted `ia` and `ib` of a
valid sample and is absent on a dropped one. -/
structure Flight where
  state : ChState
  setpoint : Option Setpoint
  idRef : Int
  iqRef : Int
  theta : Word16
  dTheta : Int
  peak : Bool
  intD : Int
  intQ : Int
  flags : LimitFlags
  lastVd : Int
  lastVq : Int
  meas : Measurement
  allowance : Nat
  stale : Nat
  hold : Nat
  loopG : LoopGroup
  limitsG : LimitsGroup
  holdG : HoldGroup
  reversed : Bool
  scale : Nat
  vdc : Nat
  period : Nat
  blank : Nat
  sample : Option (Int × Int)
deriving DecidableEq, Repr

/-- A channel context (1.1). -/
structure Context where
  state : ChState
  setpoint : Option Setpoint
  idRef : Int
  iqRef : Int
  peak : Bool
  theta : Word16
  dTheta : Int
  intD : Int
  intQ : Int
  flags : LimitFlags
  lastVd : Int
  lastVq : Int
  meas : Measurement
  allowance : Nat
  stale : Nat
  hold : Nat
  demand : Int
  record : CompRecord
  flight : Option Flight
  senseG : SenseGroup
  trackG : TrackGroup
  loopG : LoopGroup
  limitsG : LimitsGroup
  protectG : ProtectGroup
  holdG : HoldGroup
  marks : Marks
  icontCeil : Nat
  ipkCeil : Nat
deriving DecidableEq, Repr

/-! ### Carrier unit (2.1) -/

/-- The two gate outputs of a leg: both off, the low side on, or the high side on (R33). -/
inductive LegLevel where
  | off
  | low
  | high
deriving DecidableEq, Repr

/-- The edges of a leg passed since its channel's last valley (R34; log 13). -/
inductive EdgesPassed where
  | none
  | rise
  | fall
deriving DecidableEq, Repr

/-- A leg: its gate outputs and the edges it has passed in its channel's present period. -/
structure LegState where
  level : LegLevel
  passed : EdgesPassed
deriving DecidableEq, Repr

/-- A leg whose gates are both off. -/
def LegState.off : LegState := ⟨.off, .none⟩

/-- The three legs of a channel. -/
structure Legs where
  a : LegState
  b : LegState
  c : LegState
deriving DecidableEq, Repr

/-- All three legs off. -/
def Legs.off : Legs := ⟨.off, .off, .off⟩

/-- What the carrier unit holds for one channel: on-times in force, waiting on-times, last verdict, legs (2.1). -/
structure Drive where
  onTimes : OnTimes
  waiting : Option OnTimes
  valid : Bool
  legs : Legs
deriving DecidableEq, Repr

/-- The carrier unit. `marked` says that a frame mark has fallen since the reset (R23). -/
structure Carrier where
  marked : Bool
  period : Nat
  pendingP : Option Nat
  blank : Nat
  divider : Nat
  syncCount : Nat
  sync : Bool
  table : Six Channel
  pendingTable : Option (Six Channel)
  frameMark : Word16
  drives : Six Drive
deriving DecidableEq, Repr

/-! ### Sense unit (3.1) -/

/-- What the sense unit holds for one channel. -/
structure Sense where
  offA : Int
  offB : Int
  bucketA : Int
  bucketB : Int
  excursion : Nat
  quiet : Nat
  sumA : Nat
  sumB : Nat
  count : Nat
  ocCount : Nat
  dropCount : Nat
deriving DecidableEq, Repr

/-! ### Bus budget unit (5.1) -/

/-- The condition of a review (R96). -/
inductive Condition where
  | normal
  | motoringLimited
  | regenLimited
deriving DecidableEq, Repr

/-- The bus budget unit. -/
structure Bus where
  vdc : Nat
  gv : Nat
  ov : Nat
  uv : Nat
  uvh : Nat
  nuv : Nat
  uvCount : Nat
  feed : Nat
  regen : Nat
  cap : Nat
  cool : Nat
  hmax : Nat
  budgetSet : Bool
  cls : Six Nat
  reserve : Six Nat
  scale : Six Nat
  condition : Condition
  brkOnTime : Nat
  brk : Bool
  heat : Nat
  blocked : Bool
deriving DecidableEq, Repr

/-! ### Fault and event unit (11.1), torque input logic (6.1) -/

/-- The cause sets and the seen sets; the queues stand in the link interfaces (7.1). -/
structure Faults where
  causes : Six CauseSet
  seen : Three (Six CauseSet)
deriving DecidableEq, Repr

/-- The torque input logic. `bflt` says that the channel's BFLT line is active. -/
structure Torque where
  ten : Bool
  drop : Bool
  withdrawn : Six Bool
  bflt : Six Bool
deriving DecidableEq, Repr

/-! ### The part, and the machine -/

/-- The part. `held` says that RESET is low. -/
structure Part where
  held : Bool
  links : Three LinkIf
  batches : Two (Option (List Record))
  binding : Binding
  ctx : Six Context
  carrier : Carrier
  sense : Six Sense
  bus : Bus
  faults : Faults
  torque : Torque
deriving DecidableEq, Repr

/-- A step that an earlier step of the part has made due at this instant and that is not yet taken (log 3). Most are
rows of the table; `busOperation`, `review`, `decide` and `publish` are the rests of a frame mark (R87 to R106) and of a
completion (R59), which the table holds inside FRAME_MARK and COMPUTATION_COMPLETE. -/
inductive Due where
  /-- The bus unit's operation (R87 to R106), to come after `wait` further commands of the same instant (R84, R107). -/
  | busOperation (wait : Nat) (rawBus : Raw)
  /-- BUS_UV on the channels that were in CAPTURE, RUN or HOLD at the measurement (R89). -/
  | busUv (chs : List Channel)
  | review
  | chopperBlocked
  | chopperRestored
  | overcurrent (ch : Channel)
  | sampleLoss (ch : Channel)
  | captureEnd (ch : Channel)
  | offsetStep (ch : Channel) (phase : Phase)
  | recapture (ch : Channel) (rawA rawB : Raw)
  | peakExhausted (ch : Channel)
  /-- Step 2 of a completion and what follows it (R59). -/
  | decide (ch : Channel)
  | holdEntry (ch : Channel)
  | setpointTimeout (ch : Channel)
  /-- Steps 3 to 5 of a completion (R59). -/
  | publish (ch : Channel)
deriving DecidableEq, Repr

/-- The machine: the part, the steps due at this instant, and the queue of commands that wait, first in, first out. -/
structure State where
  part : Part
  due : List Due
  pending : List Instr
deriving DecidableEq, Repr

/-- What stops the machine: nothing. The manual gives every command an effect, or none, on every state of the part, and
no behaviour that stops it; so no command raises a fault. -/
inductive Fault where
deriving DecidableEq, Repr

/-- Commands without a meaning. -/
inductive Refusal where
  /-- Raised by an arm of `exec` for a row whose meaning is not written; no arm raises it, so it is neither safe nor
  unsafe for any run. -/
  | notModelled (mnemonic : String)
deriving DecidableEq, Repr

/-! ### Values after a full reset -/

/-- The reply buffer after a full reset: EMPTY, no payload (7.1). Its CRC is that of the bytes 0x83, 0x00 (R123); a test
checks it. -/
def Reply.afterReset : Reply := ⟨.empty, [], 0xAB⟩

/-- A link interface after a full reset (7.1). -/
def LinkIf.afterReset : LinkIf :=
  { rx := .idle, shiftOut := none, lastOut := [], reply := .afterReset, queue := [], overrun := false, attention := false }

/-- The binding unit after a full reset (8.1). -/
def Binding.afterReset : Binding :=
  { holders := .all none, maps := .all (.all none), toggles := .all false }

/-- The computation record after a full reset: all 0 except s = 4096, state OFF, sample not valid (1.1). -/
def CompRecord.afterReset : CompRecord :=
  { state := .off, valid := false, meas := .zero, idRef := 0, iqEff := 0, vd := 0, vq := 0, flags := .clear,
    onTimes := .zero, demand := 0, power := 0, scale := 4096, allowance := 0, theta := 0 }

/-- A channel context after a full reset (1.1, 10.1). -/
def Context.afterReset : Context :=
  { state := .off, setpoint := none, idRef := 0, iqRef := 0, peak := false, theta := 0, dTheta := 0, intD := 0, intQ := 0,
    flags := .clear, lastVd := 0, lastVq := 0, meas := .zero, allowance := 0, stale := 0, hold := 0, demand := 0,
    record := .afterReset, flight := none,
    senseG := { gA := 0, gB := 0, ro := 64 }
    trackG := { wt := 8, bt := 256, nx := 32, q := 16 }
    loopG := { kpD := 0, kiD := 0, kpQ := 0, kiQ := 0 }
    limitsG := { icont := 0, ipk := 0, idMax := 0, mlim := 31130, amax := 0 }
    protectG := { itrip := 0, ih := 0, dt := 2, dl := 3 }
    holdG := { ts := 8, rs := 100, th := 800 }
    marks := { sense := false, track := true, loop := false, limits := false, protect := false, hold := false }
    icontCeil := 32767, ipkCeil := 32767 }

/-- What the carrier unit holds for a channel after a full reset (2.1). -/
def Drive.afterReset : Drive := { onTimes := .zero, waiting := none, valid := true, legs := .off }

/-- The carrier unit after a full reset (2.1). -/
def Carrier.afterReset : Carrier :=
  { marked := false, period := 12000, pendingP := none, blank := 200, divider := 1, syncCount := 0, sync := false,
    table := ⟨0, 1, 2, 3, 4, 5⟩, pendingTable := none, frameMark := 0, drives := .all .afterReset }

/-- What the sense unit holds for a channel after a full reset (3.1). -/
def Sense.afterReset : Sense :=
  { offA := 2048, offB := 2048, bucketA := 0, bucketB := 0, excursion := 0, quiet := 0, sumA := 0, sumB := 0, count := 0,
    ocCount := 0, dropCount := 0 }

/-- The bus budget unit after a full reset (5.1). -/
def Bus.afterReset : Bus :=
  { vdc := 0, gv := 0, ov := 8000, uv := 4000, uvh := 200, nuv := 4, uvCount := 0, feed := 0, regen := 0, cap := 0,
    cool := 0, hmax := 0, budgetSet := false, cls := .all 3, reserve := .all 0, scale := .all 4096,
    condition := .normal, brkOnTime := 0, brk := false, heat := 0, blocked := false }

/-- The fault and event unit after a full reset (11.1). -/
def Faults.afterReset : Faults := { causes := .all .empty, seen := .all (.all .empty) }

/-- The torque input logic after a full reset, TEN high and no BFLT line active (6.1; log 6). -/
def Torque.afterReset : Torque := { ten := true, drop := false, withdrawn := .all false, bflt := .all false }

/-- The part in the values of a full reset; `held` while RESET is still low (R2, R23, R40, R86, R109, R120, R134, R147,
R162, R176). -/
def Part.afterReset (held : Bool) : Part :=
  { held := held, links := .all .afterReset, batches := .all none, binding := .afterReset, ctx := .all .afterReset,
    carrier := .afterReset, sense := .all .afterReset, bus := .afterReset, faults := .afterReset, torque := .afterReset }

/-- The machine right after reset: the full reset has ended with TEN high, no BFLT line active and every select line
high (log 6); no step is due and no command waits. -/
def State.reset : State := { part := .afterReset false, due := [], pending := [] }

end Sys2Proof.Machine
end

