-- ==== Sys2Proof/Machine/Ops.lean ====
section
/-! DEFINITION. The shared operations of the part: exact arithmetic (R1), access to the items of a channel, events and
queues (R186 to R190), causes (R176, R177), entering and leaving states (R3, R14, R17, R20) and the partner rule (R18). -/

namespace Sys2Proof.Machine

/-! ### Arithmetic (R1) -/

/-- `x` clamped to `lo..hi` (R1, "clamped"). -/
def clampI (lo hi x : Int) : Int := max lo (min hi x)

/-- `x` clamped to `lo..hi` (R1, "clamped"). -/
def clampN (lo hi x : Nat) : Nat := max lo (min hi x)

/-- `n / d` rounded to the nearest integer, halves away from zero (R1, "rounded"). -/
def roundDiv (n : Int) (d : Nat) : Int := n.sign * ((2 * n.natAbs + d) / (2 * d) : Nat)

/-- `n / d` truncated toward zero (R1, "truncated"). -/
def truncDiv (n : Int) (d : Nat) : Int := n.tdiv d

/-- A current clamped to the 16-bit range in which currents are stored and reported (R1). -/
def clampCurrent (x : Int) : Int := clampI (-Config.currentMax) Config.currentMax x

/-- One binary digit of the square root: the root found so far, with the digit `2^k` when its square still fits. -/
def isqrtStep (n r k : Nat) : Nat := if (r + 2 ^ k) * (r + 2 ^ k) ≤ n then r + 2 ^ k else r

/-- The square root of `n` digit by digit, from the digit `2^(k-1)` down. -/
def isqrtFrom (n : Nat) : Nat → Nat → Nat
  | 0, r => r
  | k + 1, r => isqrtFrom n k (isqrtStep n r k)

/-- The floor of the square root of a value of up to 64 bits (R1, "isqrt"; no intermediate value is wider). -/
def isqrt (n : Nat) : Nat := isqrtFrom n 32 0

/-! ### States and their classes (R3) -/

/-- RUN or HOLD: the states in which a channel's legs switch. -/
def ChState.bridgeOn : ChState → Bool
  | .run => true
  | .hold => true
  | .off => false
  | .capture => false
  | .fault => false
  | .safeOff => false

/-- CAPTURE, RUN or HOLD. -/
def ChState.active : ChState → Bool
  | .capture => true
  | .run => true
  | .hold => true
  | .off => false
  | .fault => false
  | .safeOff => false

/-! ### Access to the items of one channel or link -/

/-- The context of channel `c` changed by `f`. -/
def Part.modCtx (p : Part) (c : Channel) (f : Context → Context) : Part :=
  { p with ctx := p.ctx.set c (f (p.ctx.get c)) }

/-- The sense unit's items of channel `c` changed by `f`. -/
def Part.modSense (p : Part) (c : Channel) (f : Sense → Sense) : Part :=
  { p with sense := p.sense.set c (f (p.sense.get c)) }

/-- The carrier unit's items of channel `c` changed by `f`. -/
def Part.modDrive (p : Part) (c : Channel) (f : Drive → Drive) : Part :=
  { p with carrier := { p.carrier with drives := p.carrier.drives.set c (f (p.carrier.drives.get c)) } }

/-- The interface of link `l` changed by `f`. -/
def Part.modLink (p : Part) (l : Link) (f : LinkIf → LinkIf) : Part :=
  { p with links := p.links.set l (f (p.links.get l)) }

/-- The state of channel `c`. -/
def Part.stateOf (p : Part) (c : Channel) : ChState := (p.ctx.get c).state

/-- The cause set of channel `c`. -/
def Part.causesOf (p : Part) (c : Channel) : CauseSet := p.faults.causes.get c

/-- The seen set of link `l` for channel `c`. -/
def Part.seenOf (p : Part) (l : Link) (c : Channel) : CauseSet := (p.faults.seen.get l).get c

/-- The cause set of channel `c` replaced. -/
def Part.setCauses (p : Part) (c : Channel) (x : CauseSet) : Part :=
  { p with faults := { p.faults with causes := p.faults.causes.set c x } }

/-- The seen set of link `l` for channel `c` replaced. -/
def Part.setSeen (p : Part) (l : Link) (c : Channel) (x : CauseSet) : Part :=
  { p with faults := { p.faults with seen := p.faults.seen.set l ((p.faults.seen.get l).set c x) } }

/-- `f` applied for each channel of a list, in the list's order. -/
def Part.forChannels (p : Part) (cs : List Channel) (f : Channel → Part → Part) : Part :=
  cs.foldl (fun q c => f c q) p

/-! ### Events and queues (R186 to R190) -/

/-- The attention line follows the queue and the overrun flag (R133). -/
def LinkIf.follow (i : LinkIf) : LinkIf := { i with attention := !i.queue.isEmpty || i.overrun }

/-- The event is of the same kind, channel and detail as the entry (R187). -/
def QueueEntry.same (e : QueueEntry) (k : EventKind) (ch : Option Channel) (d : Detail) : Bool :=
  e.kind = k && e.channel = ch && e.detail = d

/-- An event that is not coalesced: appended while the queue has room, else lost with the overrun flag set (R187). -/
def LinkIf.append (i : LinkIf) (e : QueueEntry) : LinkIf :=
  if i.queue.length < Config.queueCapacity then { i with queue := i.queue ++ [e] } else { i with overrun := true }

/-- An event offered to a queue (R187): it coalesces into the newest entry when that is equal, and is appended or lost
otherwise; the attention line follows at once (R133). -/
def LinkIf.offer (i : LinkIf) (k : EventKind) (ch : Option Channel) (d : Detail) (stamp : Word16) : LinkIf :=
  let fresh : QueueEntry := { kind := k, channel := ch, detail := d, count := 1, stamp := stamp }
  match i.queue.getLast? with
  | some e =>
    if e.same k ch d then
      { i with queue := i.queue.dropLast ++ [{ e with count := min 255 (e.count + 1) }] }.follow
    else (i.append fresh).follow
  | none => (i.append fresh).follow

/-- An event sent to the queue of one link, stamped with the frame mark count (R186). -/
def Part.send (p : Part) (l : Link) (k : EventKind) (ch : Option Channel) (d : Detail) : Part :=
  p.modLink l (fun i => i.offer k ch d p.carrier.frameMark)

/-- An event of a channel sent to the queue of its holder, when it is held, and to the queue of Link S (R138, R189). -/
def Part.sendChannel (p : Part) (k : EventKind) (c : Channel) (d : Detail) : Part :=
  match p.binding.holders.get c with
  | some m => (p.send m.link k (some c) d).send .s k (some c) d
  | none => p.send .s k (some c) d

/-! ### Sets of causes (R176) -/

/-- The cause is in the set. -/
def CauseSet.has (x : CauseSet) : Cause → Bool
  | .bridge => x.bridge
  | .overcurrent => x.overcurrent
  | .busOv => x.busOv
  | .busUv => x.busUv
  | .sampleLoss => x.sampleLoss
  | .offsetRange => x.offsetRange
  | .setpointTimeout => x.setpointTimeout
  | .partner => x.partner

/-- The set with the cause present or absent as `v` says. -/
def CauseSet.put (x : CauseSet) (v : Bool) : Cause → CauseSet
  | .bridge => { x with bridge := v }
  | .overcurrent => { x with overcurrent := v }
  | .busOv => { x with busOv := v }
  | .busUv => { x with busUv := v }
  | .sampleLoss => { x with sampleLoss := v }
  | .offsetRange => { x with offsetRange := v }
  | .setpointTimeout => { x with setpointTimeout := v }
  | .partner => { x with partner := v }

/-- The causes of `x` that are not in `y`. -/
def CauseSet.diff (x y : CauseSet) : CauseSet :=
  { bridge := x.bridge && !y.bridge, overcurrent := x.overcurrent && !y.overcurrent, busOv := x.busOv && !y.busOv,
    busUv := x.busUv && !y.busUv, sampleLoss := x.sampleLoss && !y.sampleLoss,
    offsetRange := x.offsetRange && !y.offsetRange, setpointTimeout := x.setpointTimeout && !y.setpointTimeout,
    partner := x.partner && !y.partner }

/-- The eight causes, highest priority first (R176). -/
def causesByPriority : List Cause :=
  [.bridge, .overcurrent, .busOv, .busUv, .sampleLoss, .offsetRange, .setpointTimeout, .partner]

/-- The cause of highest priority in the set (R176). -/
def CauseSet.top (x : CauseSet) : Option Cause := causesByPriority.find? (fun c => x.has c)

/-- The set holds no cause. -/
def CauseSet.isEmpty (x : CauseSet) : Bool := x = CauseSet.empty

/-! ### The slot maps (8.1) -/

/-- The members of an entry, in order. -/
def SlotEntry.members (e : SlotEntry) : List Member :=
  match e.second with
  | some m => [e.first, m]
  | none => [e.first]

/-- The channels of an entry, in member order. -/
def SlotEntry.chans (e : SlotEntry) : List Channel := e.members.map (fun m => m.ch)

/-- The entry names the channel. -/
def SlotEntry.names (e : SlotEntry) (c : Channel) : Bool := e.chans.contains c

/-- The channels of an entry in ascending order (R3: events of several members go in ascending channel order). -/
def SlotEntry.ascending (e : SlotEntry) : List Channel := channels.filter (fun c => e.names c)

/-- The link slots of a motion link with the places where they stand. -/
def Part.slotsOf (p : Part) (m : Motion) : List (Motion × LinkSlot × Option SlotEntry) :=
  linkSlots.map (fun k => (m, k, (p.binding.maps.get m).get k))

/-- The place of the entry that names a channel in either slot map, and the entry. -/
def Part.entryOf (p : Part) (c : Channel) : Option (Motion × LinkSlot × SlotEntry) :=
  (p.slotsOf .a ++ p.slotsOf .b).findSome? fun x =>
    match x.2.2 with
    | some e => if e.names c then some (x.1, x.2.1, e) else none
    | none => none

/-- The partner of a channel: the other member of its two-member link slot (R18). -/
def Part.partnerOf (p : Part) (c : Channel) : Option Channel :=
  match p.entryOf c with
  | some (_, _, e) =>
    match e.second with
    | some m => if e.first.ch = c then some m.ch else some e.first.ch
    | none => none
  | none => none

/-- The reversed mark of a channel in its link slot (R63); not reversed when no slot names it. -/
def Part.reversedOf (p : Part) (c : Channel) : Bool :=
  match p.entryOf c with
  | some (_, _, e) => (e.members.find? (fun m => m.ch = c)).any (fun m => m.reversed)
  | none => false

/-- A link slot of a motion link bound or unbound. -/
def Part.setSlot (p : Part) (m : Motion) (k : LinkSlot) (e : Option SlotEntry) : Part :=
  { p with binding := { p.binding with maps := p.binding.maps.set m ((p.binding.maps.get m).set k e) } }

/-- The holder of a channel replaced. -/
def Part.setHolder (p : Part) (c : Channel) (h : Option Motion) : Part :=
  { p with binding := { p.binding with holders := p.binding.holders.set c h } }

/-- Some channel is in CAPTURE, RUN or HOLD (R26). -/
def Part.anyActive (p : Part) : Bool := channels.any (fun c => (p.stateOf c).active)

/-! ### Entering and leaving states (R3, R14, R17, R20) -/

/-- Entry of a channel into a state, with its STATE_ENTERED event (R3). -/
def Part.enter (p : Part) (c : Channel) (st : ChState) : Part :=
  (p.modCtx c (fun x => { x with state := st })).sendChannel .stateEntered c (.entered st)

/-- What R20 clears in the context of a channel that leaves RUN or HOLD; `theta`, the peak allowance and the record
stay. -/
def Context.leaveBridgeOn (x : Context) : Context :=
  { x with setpoint := none, idRef := 0, iqRef := 0, dTheta := 0, peak := false, intD := 0, intQ := 0, flags := .clear,
           lastVd := 0, lastVq := 0, stale := 0, hold := 0 }

/-- A channel leaves RUN or HOLD (R20). -/
def Part.leaveBridgeOn (p : Part) (c : Channel) : Part :=
  ((p.modDrive c (fun d => { d with onTimes := .zero, waiting := none, legs := .off })).modCtx c Context.leaveBridgeOn).modSense
    c (fun u => { u with quiet := (p.ctx.get c).trackG.q, ocCount := 0, dropCount := 0 })

/-- A channel leaves CAPTURE for OFF, FAULT or SAFE_OFF: sums discarded, pending setpoint absent, drop counter 0
(R20, R51). -/
def Part.leaveCapture (p : Part) (c : Channel) : Part :=
  (p.modCtx c (fun x => { x with setpoint := none })).modSense c
    (fun u => { u with sumA := 0, sumB := 0, count := 0, dropCount := 0 })

/-- What a channel loses when it leaves its state for a bridge-off state. -/
def Part.leaveActive (p : Part) (c : Channel) : Part :=
  match p.stateOf c with
  | .run => p.leaveBridgeOn c
  | .hold => p.leaveBridgeOn c
  | .capture => p.leaveCapture c
  | .off => p
  | .fault => p
  | .safeOff => p

/-- A channel leaves its state for OFF, FAULT or SAFE_OFF. -/
def Part.leaveTo (p : Part) (c : Channel) (st : ChState) : Part := (p.leaveActive c).enter c st

/-- Entry to SAFE_OFF without its event (R17): the pending setpoint is absent in every case. -/
def Part.intoSafeOff (p : Part) (c : Channel) : Part :=
  (p.leaveActive c).modCtx c (fun x => { x with state := .safeOff, setpoint := none })

/-! ### Raising a cause (R14, R18, R177) -/

/-- Steps 1 and 2 of R177: the cause enters the cause set and leaves the three seen sets. -/
def Part.recordCause (p : Part) (cause : Cause) (c : Channel) : Part :=
  let q := p.setCauses c ((p.causesOf c).put true cause)
  let q := q.setSeen .a c ((q.seenOf .a c).put false cause)
  let q := q.setSeen .b c ((q.seenOf .b c).put false cause)
  q.setSeen .s c ((q.seenOf .s c).put false cause)

/-- A channel that a cause takes to FAULT: one in OFF, CAPTURE, RUN or HOLD (R14). -/
def ChState.faultable : ChState → Bool
  | .off => true
  | .capture => true
  | .run => true
  | .hold => true
  | .fault => false
  | .safeOff => false

/-- A cause raised on one channel (R177): the sets, FAULT_RAISED, then the state effect of R14. -/
def Part.raiseOne (p : Part) (cause : Cause) (c : Channel) : Part :=
  let q := (p.recordCause cause c).sendChannel .faultRaised c (.cause cause)
  if (p.stateOf c).faultable then q.leaveTo c .fault else q

/-- The partner rule (R18): PARTNER is raised on the partner of `c` when that is in CAPTURE, RUN or HOLD. The partner's
own entry to FAULT finds `c` in FAULT or SAFE_OFF and raises nothing. -/
def Part.partnerRule (p : Part) (c : Channel) : Part :=
  match p.partnerOf c with
  | some q => if (p.stateOf q).active then p.raiseOne .partner q else p
  | none => p

/-- A cause raised on a channel (R177), with the partner rule when the channel enters FAULT (R18). -/
def Part.raise (p : Part) (cause : Cause) (c : Channel) : Part :=
  let q := p.raiseOne cause c
  if (p.stateOf c).faultable then q.partnerRule c else q

/-- The channels in CAPTURE, RUN or HOLD at this moment, in ascending order. -/
def Part.activeChannels (p : Part) : List Channel := channels.filter (fun c => (p.stateOf c).active)

/-- A cause raised on the channels of a list, one after another in the list's order (R88, R89). -/
def Part.raiseOn (p : Part) (cause : Cause) (cs : List Channel) : Part := p.forChannels cs (fun c q => q.raise cause c)

end Sys2Proof.Machine
end

