-- ==== Sys2Proof/Machine/BusUnit.lean ====
section
/-! DEFINITION. The bus budget unit (05): the measurement and its threshold checks (R87 to R89), the review with its entries,
condition, allocation and grant scales (R93 to R102), and the brake chopper with its heat (R103 to R106). BUS_UV,
CHOPPER_BLOCKED and CHOPPER_RESTORED are left due (log 3). -/

namespace Sys2Proof.Machine

/-! ### Measurement and checks (R87 to R89) -/

/-- Vdc of a raw DC-link sample (R87). -/
def measuredVdc (raw gv : Nat) : Nat := (clampI 0 Config.vdcMax (roundDiv (raw * gv) 256)).toNat

/-- The UV debounce count after a measurement (R89). -/
def nextUvCount (b : Bus) (vdc : Nat) : Nat := if vdc < b.uv then min 15 (b.uvCount + 1) else 0

/-- The measurement, the overvoltage check and the step of the UV debounce count (R87 to R89). -/
def Part.measureBus (p : Part) (raw : Raw) : Part :=
  let vdc := measuredVdc raw.val p.bus.gv
  let q := { p with bus := { p.bus with vdc := vdc } }
  let q := if p.bus.ov < vdc then q.raiseOn .busOv p.activeChannels else q
  { q with bus := { q.bus with uvCount := nextUvCount p.bus vdc } }

/-! ### Entries (R95) -/

/-- An entry of a review: the channels it scales, its demand, class and reserve. -/
structure Entry where
  chans : List Channel
  demand : Int
  cls : Nat
  reserve : Nat
deriving DecidableEq, Repr

/-- The demand of a channel as a review counts it: its published demand in RUN or HOLD, else 0. -/
def Part.countedDemand (p : Part) (c : Channel) : Int := if (p.stateOf c).bridgeOn then (p.ctx.get c).demand else 0

/-- The entry of a two-member link slot with a member in RUN or HOLD (R95). -/
def Part.pairEntry (p : Part) (e : SlotEntry) : Option Entry :=
  match e.second with
  | some m =>
    let c := e.first.ch
    let d := m.ch
    if (p.stateOf c).bridgeOn || (p.stateOf d).bridgeOn then
      some { chans := [c, d], demand := p.countedDemand c + p.countedDemand d,
             cls := min (p.bus.cls.get c) (p.bus.cls.get d), reserve := p.bus.reserve.get c + p.bus.reserve.get d }
    else none
  | none => none

/-- The entry of a channel in RUN or HOLD that is in no two-member slot (R95). -/
def Part.singleEntry (p : Part) (c : Channel) : Option Entry :=
  if (p.stateOf c).bridgeOn && (p.partnerOf c).isNone then
    some { chans := [c], demand := p.countedDemand c, cls := p.bus.cls.get c, reserve := p.bus.reserve.get c }
  else none

/-- The bound link slots of both motion links. -/
def Part.boundEntries (p : Part) : List SlotEntry :=
  (p.slotsOf .a ++ p.slotsOf .b).filterMap (fun x => x.2.2)

/-- The entries of a review (R95). -/
def Part.entries (p : Part) : List Entry :=
  channels.filterMap p.singleEntry ++ p.boundEntries.filterMap p.pairEntry

/-! ### Allocation (R96 to R100) -/

/-- T: the sum of the demands of the motoring entries (R96). -/
def motoringSum (es : List Entry) : Nat := (es.map (fun e => e.demand.toNat)).sum

/-- Nreg: the sum of the magnitudes of the demands of the regenerating entries (R96). -/
def regenSum (es : List Entry) : Nat := (es.map (fun e => (-e.demand).toNat)).sum

/-- One participant of an allocation: the magnitude of its demand, its reserve and its class. -/
structure Share where
  d : Nat
  m : Nat
  cls : Nat
deriving DecidableEq, Repr

/-- The reserve grant (R97). -/
def Share.g (x : Share) : Nat := min x.d x.m

/-- The excess over the reserve grant (R98). -/
def Share.excess (x : Share) : Nat := x.d - x.g

/-- Sr: the sum of the reserve grants (R97). -/
def reserveSum (xs : List Share) : Nat := (xs.map Share.g).sum

/-- E: the sum of the excesses of a class (R98). -/
def classExcess (xs : List Share) (k : Nat) : Nat := ((xs.filter (fun x => x.cls = k)).map Share.excess).sum

/-- The remainder R as class `k` finds it, `r` being the one the reserve step left (R98): a class whose excess fits takes it,
and a short class takes all. -/
def remainderAt (xs : List Share) (r : Nat) : Nat → Nat
  | 0 => r
  | k + 1 =>
    let rk := remainderAt xs r k
    if classExcess xs k ≤ rk then rk - classExcess xs k else 0

/-- The grant of a participant in the class step (R98). -/
def classGrant (xs : List Share) (r : Nat) (x : Share) : Nat :=
  let rk := remainderAt xs r x.cls
  let e := classExcess xs x.cls
  if e ≤ rk then x.d else x.g + x.excess * rk / e

/-- The grant of a participant when the power `pav` is shared among `xs` (R97, R98). -/
def grant (xs : List Share) (pav : Nat) (x : Share) : Nat :=
  let sr := reserveSum xs
  if pav < sr then x.g * pav / sr else classGrant xs (pav - sr) x

/-- The scale of a grant (R99). -/
def scaleOf (g d : Nat) : Nat := min Config.fullScale (Config.fullScale * g / d)

/-- An entry as a participant of an allocation. -/
def Entry.share (e : Entry) : Share := { d := e.demand.natAbs, m := e.reserve, cls := e.cls }

/-- The condition of a review (R96). -/
def conditionOf (b : Bus) (es : List Entry) (capEff : Nat) : Condition :=
  let t : Int := motoringSum es
  let n : Int := regenSum es
  if (b.feed : Int) < t - n then .motoringLimited
  else if ((b.regen + capEff : Nat) : Int) < n - t then .regenLimited
  else .normal

/-- The scale of an entry in a review (R96, R99, R100). -/
def entryScale (b : Bus) (es : List Entry) (capEff : Nat) (e : Entry) : Nat :=
  match conditionOf b es capEff with
  | .normal => Config.fullScale
  | .motoringLimited =>
    if 0 < e.demand then
      scaleOf (grant ((es.filter (fun x => 0 < x.demand)).map Entry.share) (b.feed + regenSum es) e.share) e.demand.natAbs
    else Config.fullScale
  | .regenLimited =>
    if e.demand < 0 then
      scaleOf (grant ((es.filter (fun x => x.demand < 0)).map Entry.share) (b.regen + capEff + motoringSum es) e.share)
        e.demand.natAbs
    else Config.fullScale

/-- The grant scale that a review writes for a channel (R101). -/
def Part.newScale (p : Part) (es : List Entry) (capEff : Nat) (c : Channel) : Nat :=
  if (p.stateOf c).bridgeOn then
    match es.find? (fun e => e.chans.contains c) with
    | some e => entryScale p.bus es capEff e
    | none => Config.fullScale
  else Config.fullScale

/-- One grant scale written, with its event when it leaves or returns to 4096 (R101, R102). -/
def Part.writeScale (p : Part) (c : Channel) (s : Nat) : Part :=
  let old := p.bus.scale.get c
  let q := { p with bus := { p.bus with scale := p.bus.scale.set c s } }
  if old = Config.fullScale && s < Config.fullScale then q.sendChannel .budgetLimited c .none
  else if old < Config.fullScale && s = Config.fullScale then q.sendChannel .budgetReleased c .none
  else q

/-! ### The brake chopper (R103 to R106) -/

/-- Cap_eff: the chopper's capacity, 0 while it is blocked (R96). -/
def Bus.capEff (b : Bus) : Nat := if b.blocked then 0 else b.cap

/-- The chopper power (R103). -/
def chopperPower (b : Bus) (es : List Entry) (capEff : Nat) : Nat :=
  min capEff (regenSum es - motoringSum es - b.regen)

/-- The BRK on-time of a period of `period` ticks (R104). -/
def brkOnTimeOf (period pch cap : Nat) : Nat := if cap = 0 then 0 else period * pch / cap

/-- The heat after a review (R105). -/
def nextHeat (b : Bus) (pch : Nat) : Nat := min Config.heatMax (b.heat + pch - b.cool)

/-- The chopper is to be blocked after a heat update (R106). -/
def Bus.blocks (b : Bus) : Bool := !b.blocked && 0 < b.hmax && b.hmax ≤ b.heat

/-- The block is to be lifted after a heat update (R106). -/
def Bus.restores (b : Bus) : Bool := b.blocked && (b.hmax = 0 || b.heat ≤ b.hmax / 2)

/-- The review (R93), up to the judgement of the blocked flag, which is left due (R106). -/
def Part.review (p : Part) : Part × List Due :=
  let es := p.entries
  let capEff := p.bus.capEff
  let pch := chopperPower p.bus es capEff
  let q := p.forChannels channels (fun c q => q.writeScale c (p.newScale es capEff c))
  let onTime := brkOnTimeOf p.carrier.period pch p.bus.cap
  let b := { q.bus with condition := conditionOf p.bus es capEff, brkOnTime := onTime, brk := 0 < onTime,
                        heat := nextHeat p.bus pch }
  ({ q with bus := b }, if b.blocks then [.chopperBlocked] else if b.restores then [.chopperRestored] else [])

/-- The bus unit's operation at a frame mark (R87 to R106), up to the first row of the table that it makes due. BUS_UV comes
before the review, which then reads the states it left (R88). Its channels are those in CAPTURE, RUN or HOLD at the
measurement, so that a measurement both above OV and below UV leaves each of them both causes (R89). -/
def Part.busOperation (p : Part) (raw : Raw) : Part × List Due :=
  let q := p.measureBus raw
  if q.bus.nuv ≤ q.bus.uvCount then (q, [.busUv p.activeChannels, .review]) else q.review

/-- CHOPPER_BLOCKED (R106). -/
def Part.blockChopper (p : Part) : Part :=
  ({ p with bus := { p.bus with blocked := true } }).send .s .chopperBlocked none .none

/-- CHOPPER_RESTORED (R106). -/
def Part.restoreChopper (p : Part) : Part :=
  ({ p with bus := { p.bus with blocked := false } }).send .s .chopperRestored none .none

/-- BRK goes low when the on-time of its period has passed; an on-time of the whole period leaves it high (R104, log 16). -/
def Part.brkOnTimeEnd (p : Part) : Part :=
  if p.bus.brkOnTime < p.carrier.period then { p with bus := { p.bus with brk := false } } else p

end Sys2Proof.Machine
end

