-- ==== Sys2Proof/Machine/Operands.lean ====
section
/-! DEFINITION. Reading the payload of a request and forming the fields of a reply: big-endian fields (R121), channel
index, link slot and mask bytes (R191), setpoint records (12.5), and the codes of 12.2. -/

namespace Sys2Proof.Machine

/-! ### Fields of a request payload -/

/-- An unsigned field of two bytes, most significant byte first (R121). -/
def u16 (hi lo : Byte) : Nat := hi.toNat * 256 + lo.toNat

/-- An unsigned field of four bytes, most significant byte first (R121). -/
def u32 (b3 b2 b1 b0 : Byte) : Nat := u16 b3 b2 * 65536 + u16 b1 b0

/-- A signed field of two bytes in two's complement (R121). -/
def s16 (hi lo : Byte) : Int := (BitVec.ofNat 16 (u16 hi lo)).toInt

/-- A channel index byte: 0 to 5, else none (R191). -/
def channelOf (b : Byte) : Option Channel := if h : b.toNat < 6 then some ⟨b.toNat, h⟩ else none

/-- A link slot byte: 0 to 3, else none (R191). -/
def linkSlotOf (b : Byte) : Option LinkSlot := if h : b.toNat < 4 then some ⟨b.toNat, h⟩ else none

/-- A channel mask byte: the channels it names in ascending order, none when it names a channel above CH5 (R191). -/
def maskOf (b : Byte) : Option (List Channel) :=
  if b.toNat < 64 then some (channels.filter (fun c => b.toNat.testBit c.val)) else none

/-- A payload that is one channel index byte. -/
def onlyChannel : List Byte → Option Channel
  | [b] => channelOf b
  | _ => none

/-- A payload that is one link slot byte. -/
def onlySlot : List Byte → Option LinkSlot
  | [b] => linkSlotOf b
  | _ => none

/-- A payload that is one channel mask byte. -/
def onlyMask : List Byte → Option (List Channel)
  | [b] => maskOf b
  | _ => none

/-- A member of a MAP payload: a channel byte and a reversed byte, 0 for not reversed (R191). -/
def memberOf (ch rev : Byte) : Option Member := (channelOf ch).map (fun c => { ch := c, reversed := rev ≠ 0 })

/-- A MAP payload: a link slot and one or two members (12.3). -/
def mapFields : List Byte → Option (LinkSlot × SlotEntry)
  | [k, c1, r1] =>
    match linkSlotOf k, memberOf c1 r1 with
    | some k, some m => some (k, { first := m, second := none })
    | _, _ => none
  | [k, c1, r1, c2, r2] =>
    match linkSlotOf k, memberOf c1 r1, memberOf c2 r2 with
    | some k, some m, some n => some (k, { first := m, second := some n })
    | _, _, _ => none
  | _ => none

/-- An entry of a CLASS payload: channel, class and reserve as written. -/
structure ClassEntry where
  ch : Channel
  cls : Nat
  reserve : Nat
deriving DecidableEq, Repr

/-- The entries of a CLASS payload: whole entries of four bytes with channel indexes 0 to 5 (R92). -/
def classEntries : List Byte → Option (List ClassEntry)
  | [] => some []
  | c :: k :: r1 :: r0 :: rest =>
    match channelOf c, classEntries rest with
    | some ch, some es => some ({ ch := ch, cls := k.toNat, reserve := u16 r1 r0 } :: es)
    | _, _ => none
  | _ => none

/-- A CLASS payload: one to six entries (R92, 12.3). -/
def classFields (p : List Byte) : Option (List ClassEntry) :=
  match classEntries p with
  | some es => if 1 ≤ es.length && es.length ≤ 6 then some es else none
  | none => none

/-- The records of a SET payload after its flag byte, each reference clamped as it is to be stored (R148, R151, 12.5).
`none` for a head of no known kind, a record cut short, or a link slot above 3. -/
def recordsOf : List Byte → Option (List Record)
  | [] => some []
  | h :: rest =>
    if h = 0x20 then (recordsOf rest).map (fun rs => .peak :: rs)
    else if h = 0x11 then
      match rest with
      | k :: i1 :: i0 :: q1 :: q0 :: t1 :: t0 :: d1 :: d0 :: rest =>
        match linkSlotOf k, recordsOf rest with
        | some k, some rs =>
          some (.set k (clampCurrent (s16 i1 i0)) (clampCurrent (s16 q1 q0)) [⟨BitVec.ofNat 16 (u16 t1 t0), s16 d1 d0⟩] :: rs)
        | _, _ => none
      | _ => none
    else if h = 0x12 then
      match rest with
      | k :: i1 :: i0 :: q1 :: q0 :: t1 :: t0 :: d1 :: d0 :: v1 :: v0 :: e1 :: e0 :: rest =>
        match linkSlotOf k, recordsOf rest with
        | some k, some rs =>
          some (.set k (clampCurrent (s16 i1 i0)) (clampCurrent (s16 q1 q0))
            [⟨BitVec.ofNat 16 (u16 t1 t0), s16 d1 d0⟩, ⟨BitVec.ofNat 16 (u16 v1 v0), s16 e1 e0⟩] :: rs)
        | _, _ => none
      | _ => none
    else none

/-! ### Fields of a reply -/

/-- A field of one byte. -/
def put8 (n : Nat) : List Byte := [BitVec.ofNat 8 n]

/-- An unsigned field of two bytes, most significant byte first (R121). -/
def put16 (n : Nat) : List Byte := [BitVec.ofNat 8 (n / 256), BitVec.ofNat 8 n]

/-- An unsigned field of four bytes, most significant byte first (R121). -/
def put32 (n : Nat) : List Byte := put16 (n / 65536) ++ put16 n

/-- A signed field of two bytes in two's complement (R121). -/
def putS16 (x : Int) : List Byte := put16 (BitVec.ofInt 16 x).toNat

/-- A signed field of four bytes in two's complement (R121). -/
def putS32 (x : Int) : List Byte := put32 (BitVec.ofInt 32 x).toNat

/-- A flag as the number 0 or 1. -/
def bit (b : Bool) : Nat := if b then 1 else 0

/-- A channel mask byte: bit k for CHk (R191). -/
def maskByte (f : Channel → Bool) : List Byte :=
  put8 (channels.foldl (fun n c => n + bit (f c) * 2 ^ c.val) 0)

/-! ### Codes (12.2) -/

/-- The code of a request kind. -/
def Kind.code : Kind → Byte
  | .nop => 0x00
  | .linkReset => 0x01
  | .status => 0x02
  | .events => 0x03
  | .read => 0x04
  | .ack => 0x05
  | .claim => 0x10
  | .release => 0x11
  | .map => 0x12
  | .unmap => 0x13
  | .param => 0x14
  | .enable => 0x15
  | .disable => 0x16
  | .set => 0x17
  | .discard => 0x18
  | .budget => 0x20
  | .bus => 0x21
  | .classes => 0x22
  | .ceiling => 0x23
  | .timing => 0x24
  | .slot => 0x25
  | .withdraw => 0x26
  | .restore => 0x27
  | .edgeClear => 0x28
  | .revoke => 0x29

/-- All request kinds of both sets (7.6). -/
def allKinds : List Kind :=
  [.nop, .linkReset, .status, .events, .read, .ack, .claim, .release, .map, .unmap, .param, .enable, .disable, .set,
   .discard, .budget, .bus, .classes, .ceiling, .timing, .slot, .withdraw, .restore, .edgeClear, .revoke]

/-- The request kind of a kind byte, none for a byte of neither set (R124 check 5). -/
def kindOf (b : Byte) : Option Kind := allKinds.find? (fun k => k.code = b)

/-- The code of a reply kind. -/
def ReplyKind.code : ReplyKind → Byte
  | .done => 0x80
  | .refused => 0x81
  | .frameError => 0x82
  | .empty => 0x83

/-- The code of a FRAME_ERROR subcode. -/
def Subcode.code : Subcode → Byte
  | .length => 1
  | .crc => 2
  | .kind => 3

/-- The code of a refusal reason. -/
def Reason.code : Reason → Byte
  | .wrongLink => 1
  | .badValue => 2
  | .notHeld => 3
  | .heldElsewhere => 4
  | .slotBound => 5
  | .slotUnbound => 6
  | .channelActive => 7
  | .paramsIncomplete => 8
  | .budgetUnset => 9
  | .busLow => 10
  | .torqueWithdrawn => 11
  | .faultPresent => 12
  | .batchFull => 13
  | .notAllOff => 14
  | .lineLow => 15

/-- The code of a channel state. -/
def ChState.code : ChState → Nat
  | .off => 0
  | .capture => 1
  | .run => 2
  | .hold => 3
  | .fault => 4
  | .safeOff => 5

/-- The code of a holder. -/
def holderCode : Option Motion → Nat
  | none => 0
  | some .a => 1
  | some .b => 2

/-- The code of a budget condition. -/
def Condition.code : Condition → Nat
  | .normal => 0
  | .motoringLimited => 1
  | .regenLimited => 2

/-- The priority of a cause, which is its code (R176, 12.2). -/
def Cause.priority : Cause → Nat
  | .bridge => 1
  | .overcurrent => 2
  | .busOv => 3
  | .busUv => 4
  | .sampleLoss => 5
  | .offsetRange => 6
  | .setpointTimeout => 7
  | .partner => 8

/-- The code of an event kind. -/
def EventKind.code : EventKind → Nat
  | .faultRaised => 1
  | .stateEntered => 2
  | .sampleDropped => 3
  | .offsetRecaptured => 4
  | .budgetLimited => 5
  | .budgetReleased => 6
  | .peakExhausted => 7
  | .prefixDropped => 8
  | .batchLost => 9
  | .claimRevoked => 10
  | .torqueDrop => 11
  | .chopperBlocked => 12
  | .chopperRestored => 13

/-- The byte of a channel, 0xFF for none (R192). -/
def channelByte : Option Channel → Nat
  | some c => c.val
  | none => 0xFF

/-- The byte of a detail, 0xFF for none (R192, 12.7). -/
def Detail.code : Detail → Nat
  | .none => 0xFF
  | .cause c => c.priority
  | .entered st => st.code

/-- An event entry of six bytes (12.7). -/
def QueueEntry.bytes (e : QueueEntry) : List Byte :=
  put8 e.kind.code ++ put8 (channelByte e.channel) ++ put8 e.detail.code ++ put8 e.count ++ put16 e.stamp.toNat

end Sys2Proof.Machine
end

