-- ==== Sys2Proof/Machine/Flags.lean ====
section
/-! DEFINITION. The flags the part computes: the limit flags of a computation (R75), the four flags of STATUS (R82, R178),
the flag and set bytes of the replies (R192, 12.3, 12.6, 12.8), and the LIMITS clamp order that ties the limits to the
ceilings (R170). -/

namespace Sys2Proof.Machine

/-- The limit flags of one computation from the unlimited voltages and their bounds (R75); a value equal to its bound is not
limited. -/
def limitFlags (vd vq vmax vqLim : Int) : LimitFlags :=
  { dHigh := vd > vmax, dLow := vd < -vmax, qHigh := vq > vqLim, qLow := vq < -vqLim }

/-- Any of the four limit flags is set. -/
def LimitFlags.any (f : LimitFlags) : Bool := f.dHigh || f.dLow || f.qHigh || f.qLow

/-- STATUS flag "voltage-limited", from the computation record (R82). -/
def Context.voltageLimited (x : Context) : Bool := x.record.flags.any

/-- STATUS flag "peak active": the record's `iq_eff` against the Icont in force (R82). -/
def Context.peakActive (x : Context) : Bool := (x.limitsG.icont : Int) < x.record.iqEff.natAbs

/-- STATUS flag "budget-limited": the record's scale is below 4096 (R82). -/
def Context.budgetLimited (x : Context) : Bool := x.record.scale < Config.fullScale

/-- A cause set as one byte, bit (priority - 1) for each cause present (R192). -/
def CauseSet.code (x : CauseSet) : Nat :=
  bit x.bridge + bit x.overcurrent * 2 + bit x.busOv * 4 + bit x.busUv * 8 + bit x.sampleLoss * 16 +
    bit x.offsetRange * 32 + bit x.setpointTimeout * 64 + bit x.partner * 128

/-- A top cause as its priority, 0 when the set is empty (R192). -/
def CauseSet.topCode (x : CauseSet) : Nat :=
  match x.top with
  | some c => c.priority
  | none => 0

/-- The loaded marks byte: SENSE, TRACK, LOOP, LIMITS, PROTECT, HOLD at bits 0 to 5 (12.3). -/
def Marks.code (m : Marks) : Nat :=
  bit m.sense + bit m.track * 2 + bit m.loop * 4 + bit m.limits * 8 + bit m.protect * 16 + bit m.hold * 32

/-- The flags byte of a computation record (12.8). -/
def CompRecord.flagCode (r : CompRecord) : Nat :=
  bit r.valid + bit r.flags.dHigh * 2 + bit r.flags.dLow * 4 + bit r.flags.qHigh * 8 + bit r.flags.qLow * 16

/-- The 38 bytes of a computation record (12.8). -/
def CompRecord.bytes (r : CompRecord) : List Byte :=
  put8 r.state.code ++ put8 r.flagCode ++ putS16 r.meas.ia ++ putS16 r.meas.ib ++ putS16 r.meas.id ++ putS16 r.meas.iq ++
    putS16 r.idRef ++ putS16 r.iqEff ++ putS16 r.vd ++ putS16 r.vq ++ put16 r.onTimes.a ++ put16 r.onTimes.b ++
    put16 r.onTimes.c ++ putS32 r.demand ++ putS32 r.power ++ put16 r.scale ++ put16 r.allowance ++ put16 r.theta.toNat

/-- The flags byte of a STATUS member entry (12.6). -/
def Part.statusFlags (p : Part) (c : Channel) : Nat :=
  let x := p.ctx.get c
  bit x.voltageLimited + bit x.budgetLimited * 2 + bit x.peakActive * 4 + bit (!(p.carrier.drives.get c).valid) * 8

/-- The clamp order of LIMITS against the ceilings, steps 1 to 3 (R170). -/
def limitsClampOrder (icontCeil ipkCeil : Nat) (g : LimitsGroup) : LimitsGroup :=
  let icont := min g.icont icontCeil
  let ipk := min (max g.ipk icont) ipkCeil
  { g with icont := icont, ipk := ipk, idMax := min g.idMax ipk }

/-- LIMITS values put through the clamp order with the ceilings in force, and A bounded by Amax (R170, steps 1 to 4). -/
def Context.reclamp (x : Context) (g : LimitsGroup) : Context :=
  let g' := limitsClampOrder x.icontCeil x.ipkCeil g
  { x with limitsG := g', allowance := min x.allowance g'.amax }

end Sys2Proof.Machine
end

