-- ==== Sys2Proof/Machine/Trig.lean ====
section
/-! DEFINITION. The fixed function of the angle (R68): S = rounded(32767 sin(2 pi theta / 65536)) and the cosine, for every one of
the 65536 angles. Sine and cosine of an angle up to an eighth of a turn come from their power series in fixed-point
arithmetic with 64 fraction bits; the rest of the turn follows by symmetry. The series is far more precise than the rounding
needs: no angle has its scaled sine nearer than 7e-6 to a half (log 15). -/

namespace Sys2Proof.Machine

/-- One in the fixed-point format of the series. -/
def trigOne : Nat := 2 ^ 64

/-- The floor of pi in the fixed-point format of the series. -/
def trigPi : Nat := 57952155664616982739

/-- The product of two fixed-point numbers. -/
def trigMul (a b : Nat) : Nat := a * b / trigOne

/-- The angle of `k` steps of 1/65536 turn, in radians. -/
def trigAngle (k : Nat) : Nat := k * trigPi / 2 ^ 15

/-- `1 - y/d1 (1 - y/d2 (1 - ...))`: an alternating power series in `y` by its successive quotients. -/
def trigSeries (y : Nat) (ds : List Nat) : Nat := ds.foldr (fun d acc => trigOne - trigMul y acc / d) trigOne

/-- The sine of `k` steps, `k` up to 8192: `x - x^3/3! + x^5/5! - ...`. -/
def sinSeries (k : Nat) : Nat :=
  let x := trigAngle k
  trigMul x (trigSeries (trigMul x x) [2 * 3, 4 * 5, 6 * 7, 8 * 9, 10 * 11, 12 * 13, 14 * 15])

/-- The cosine of `k` steps, `k` up to 8192: `1 - x^2/2! + x^4/4! - ...`. -/
def cosSeries (k : Nat) : Nat :=
  let x := trigAngle k
  trigSeries (trigMul x x) [1 * 2, 3 * 4, 5 * 6, 7 * 8, 9 * 10, 11 * 12, 13 * 14, 15 * 16]

/-- 32767 times the sine of `k` steps of the first quarter turn, rounded (R68). -/
def sinQuarter (k : Nat) : Nat :=
  (32767 * (if k ≤ 8192 then sinSeries k else cosSeries (16384 - k)) + 2 ^ 63) / trigOne

/-- S of R68 for an angle given as a number of steps. -/
def sinSteps (n : Nat) : Int :=
  let r := n % 16384
  match n / 16384 % 4 with
  | 0 => sinQuarter r
  | 1 => sinQuarter (16384 - r)
  | 2 => -sinQuarter r
  | _ => -sinQuarter (16384 - r)

/-- S of R68. -/
def sinQ15 (theta : Word16) : Int := sinSteps theta.toNat

/-- C of R68: the sine a quarter turn further on. -/
def cosQ15 (theta : Word16) : Int := sinSteps (theta.toNat + 16384)

end Sys2Proof.Machine
end

