-- ==== Sys2Proof/Machine/Loop.lean ====
section
/-! DEFINITION. The current loop computation (04): the inputs a computation takes at its start (R58), its ten stages as
functions of those inputs (R60 to R80), and its completion in the steps of R59. -/

namespace Sys2Proof.Machine

/-! ### Start of a computation (R10, R58) -/

/-- A pending setpoint whose fresh mark has been taken (R10, R60). -/
def Setpoint.taken (x : Setpoint) : Setpoint := { x with fresh := false }

/-- The inputs of a computation that starts now on channel `c` with the sample given, absent when it was dropped (R58). -/
def Part.flightOf (p : Part) (c : Channel) (sample : Option (Int × Int)) : Flight :=
  let x := p.ctx.get c
  { state := x.state, setpoint := x.setpoint, idRef := x.idRef, iqRef := x.iqRef, theta := x.theta, dTheta := x.dTheta,
    peak := x.peak, intD := x.intD, intQ := x.intQ, flags := x.flags, lastVd := x.lastVd, lastVq := x.lastVq,
    meas := x.meas, allowance := x.allowance, stale := x.stale, hold := x.hold, loopG := x.loopG, limitsG := x.limitsG,
    holdG := x.holdG, reversed := p.reversedOf c, scale := p.bus.scale.get c, vdc := p.bus.vdc,
    period := p.carrier.period, blank := p.carrier.blank, sample := sample }

/-- The start of a computation: the inputs are taken, and a fresh pending setpoint ceases to be fresh (R10). -/
def Part.startComputation (p : Part) (c : Channel) (sample : Option (Int × Int)) : Part :=
  p.modCtx c (fun x => { x with flight := some (p.flightOf c sample), setpoint := x.setpoint.map Setpoint.taken })

/-! ### Stage 1: setpoint intake (R60 to R62) -/

/-- What stage 1 leaves: references, angle, permission and counters. -/
structure Intake where
  fresh : Bool
  idRef : Int
  iqRef : Int
  theta : Word16
  dTheta : Int
  peak : Bool
  stale : Nat
  hold : Nat
deriving DecidableEq, Repr

/-- A reference moved toward zero by `rs` without crossing it (R62). -/
def ramp (rs : Nat) (x : Int) : Int :=
  if x > rs then x - rs else if x < -(rs : Int) then x + rs else 0

/-- A fresh setpoint taken (R60). -/
def takeSetpoint (x : Setpoint) : Intake :=
  { fresh := true, idRef := x.idRef, iqRef := x.iqRef, theta := x.theta, dTheta := x.dTheta, peak := x.peak, stale := 0,
    hold := 0 }

/-- No fresh setpoint: the angle carries on and the staleness counter steps (R61); in HOLD the references ramp and the hold
counter steps (R62). -/
def carryOn (f : Flight) : Intake :=
  let ramping := f.state = .hold
  { fresh := false
    idRef := if ramping then ramp f.holdG.rs f.idRef else f.idRef
    iqRef := if ramping then ramp f.holdG.rs f.iqRef else f.iqRef
    theta := f.theta + BitVec.ofInt 16 f.dTheta
    dTheta := f.dTheta
    peak := f.peak
    stale := min 255 (f.stale + 1)
    hold := if ramping then min 65535 (f.hold + 1) else f.hold }

/-- Stage 1 (R60 to R62). -/
def intake (f : Flight) : Intake :=
  match f.setpoint with
  | some x => if x.fresh then takeSetpoint x else carryOn f
  | none => carryOn f

/-! ### Stage 2: reference shaping (R63 to R66) -/

/-- The shaped d reference (R63). -/
def shapedId (f : Flight) (n : Intake) : Int := clampI (-(f.limitsG.idMax : Int)) f.limitsG.idMax n.idRef

/-- The q reference after polarity (R63). -/
def polarIq (f : Flight) (n : Intake) : Int := if f.reversed then clampCurrent (-n.iqRef) else n.iqRef

/-- The q limit L (R64). -/
def qLimit (f : Flight) (n : Intake) : Nat :=
  if n.peak && 0 < f.allowance then f.limitsG.ipk else f.limitsG.icont

/-- The shaped q reference (R64). -/
def shapedIq (f : Flight) (n : Intake) : Int := clampI (-(qLimit f n : Int)) (qLimit f n) (polarIq f n)

/-- The effective q reference (R65). -/
def effectiveIq (f : Flight) (n : Intake) : Int := truncDiv (shapedIq f n * f.scale) 4096

/-- The computation costs one count of the peak allowance (R66). -/
def spendsPeak (f : Flight) (n : Intake) : Bool := (f.limitsG.icont : Int) < (effectiveIq f n).natAbs

/-- The peak allowance after the update of R66. -/
def nextAllowance (f : Flight) (n : Intake) : Nat :=
  if spendsPeak f n then f.allowance - 1 else min (f.allowance + 1) f.limitsG.amax

/-! ### Stages 3 to 5: measurement, errors, PI (R69 to R73) -/

/-- The measurement of a valid sample at angle `theta` (R69). -/
def measure (theta : Word16) (ia ib : Int) : Measurement :=
  let s := sinQ15 theta
  let c := cosQ15 theta
  let beta := clampCurrent (roundDiv ((ia + 2 * ib) * Config.invSqrt3) 32768)
  { ia := clampCurrent ia
    ib := clampCurrent ib
    id := clampCurrent (roundDiv (clampCurrent ia * c + beta * s) 32768)
    iq := clampCurrent (roundDiv (-(clampCurrent ia) * s + beta * c) 32768) }

/-- The measurement of the computation: that of its sample, or the held one on a dropped sample (R69, R70). -/
def measurement (f : Flight) (n : Intake) : Measurement :=
  match f.sample with
  | some (ia, ib) => measure n.theta ia ib
  | none => f.meas

/-- An integrator after its increment `inc`, which a limit in its direction keeps out, and after the clamp to the voltage
limit (R72). -/
def integrate (vmax : Int) (high low : Bool) (integ inc : Int) : Int :=
  clampI (-vmax) vmax (if (high && 0 < inc) || (low && inc < 0) then integ else integ + inc)

/-- The Vdc a computation uses (R74). -/
def vdcUsed (f : Flight) : Nat := max f.vdc Config.vdcFloor

/-- The voltage limit Vmax (R74). -/
def voltageMax (f : Flight) : Nat := vdcUsed f * Config.invSqrt3.toNat * f.limitsG.mlim / 2 ^ 30

/-- What the PI stage leaves: integrators and unlimited voltages. -/
structure PiOut where
  intD : Int
  intQ : Int
  vd : Int
  vq : Int
deriving DecidableEq, Repr

/-- The PI stage on a valid sample (R71, R72). -/
def piStage (f : Flight) (n : Intake) (m : Measurement) : PiOut :=
  let ed := shapedId f n - m.id
  let eq := effectiveIq f n - m.iq
  let vmax : Int := voltageMax f
  let intD := integrate vmax f.flags.dHigh f.flags.dLow f.intD (roundDiv (f.loopG.kiD * ed) 65536)
  let intQ := integrate vmax f.flags.qHigh f.flags.qLow f.intQ (roundDiv (f.loopG.kiQ * eq) 65536)
  { intD := intD, intQ := intQ, vd := roundDiv (f.loopG.kpD * ed) 4096 + intD,
    vq := roundDiv (f.loopG.kpQ * eq) 4096 + intQ }

/-- Stages 4 and 5: on a dropped sample the integrators stay and the last unlimited voltages serve (R73). -/
def piOut (f : Flight) (n : Intake) : PiOut :=
  match f.sample with
  | some _ => piStage f n (measurement f n)
  | none => { intD := f.intD, intQ := f.intQ, vd := f.lastVd, vq := f.lastVq }

/-! ### Stage 6: the voltage limit (R74, R75) -/

/-- The limited voltages and the limit flags. -/
structure Limited where
  vd : Int
  vq : Int
  flags : LimitFlags
deriving DecidableEq, Repr

/-- The voltage limit (R75). -/
def limitVoltage (vmax : Nat) (vd vq : Int) : Limited :=
  let vdL := clampI (-(vmax : Int)) vmax vd
  let vqLim : Int := isqrt (vmax * vmax - vdL.natAbs * vdL.natAbs)
  { vd := vdL, vq := clampI (-vqLim) vqLim vq, flags := limitFlags vd vq vmax vqLim }

/-! ### Stages 7 to 9: output angle, injection, on-times (R76 to R78) -/

/-- The output angle (R76). -/
def outputAngle (n : Intake) : Word16 := n.theta + BitVec.ofInt 16 (roundDiv (3 * n.dTheta) 2)

/-- The three phase voltages before the injection (R76, R77). -/
def phaseVoltages (theta : Word16) (vd vq : Int) : Int × Int × Int :=
  let s := sinQ15 theta
  let c := cosQ15 theta
  let alpha := roundDiv (vd * c - vq * s) 32768
  let beta := roundDiv (vd * s + vq * c) 32768
  let vb := roundDiv (-16384 * alpha + Config.halfSqrt3 * beta) 32768
  (alpha, vb, -alpha - vb)

/-- The common-mode voltage (R77). -/
def commonMode (v : Int × Int × Int) : Int :=
  truncDiv (max v.1 (max v.2.1 v.2.2) + min v.1 (min v.2.1 v.2.2)) 2

/-- The on-time of a leg from its shifted phase voltage (R78). -/
def onTime (f : Flight) (v : Int) : Nat :=
  let u := vdcUsed f
  (clampI 0 ((f.period : Int) - 2 * f.blank) (roundDiv ((f.period * u / 2 : Nat) + v * f.period) u)).toNat

/-- Stages 8 and 9 (R77, R78). -/
def onTimesOf (f : Flight) (v : Int × Int × Int) : OnTimes :=
  let vo := commonMode v
  { a := onTime f (v.1 - vo), b := onTime f (v.2.1 - vo), c := onTime f (v.2.2 - vo) }

/-- `3 (vd i_d + vq i_q) / 2000` truncated: a power in watts (R79, R80). -/
def powerOf (vd vq i j : Int) : Int := truncDiv (3 * (vd * i + vq * j)) 2000

/-! ### The results of a computation -/

/-- All results of a computation. -/
structure Result where
  intake : Intake
  shapedId : Int
  iqEff : Int
  allowance : Nat
  spends : Bool
  meas : Measurement
  pi : PiOut
  limited : Limited
  onTimes : OnTimes
  demand : Int
  power : Int
deriving DecidableEq, Repr

/-- The ten stages (04, introduction). -/
def compute (f : Flight) : Result :=
  let n := intake f
  let m := measurement f n
  let pi := piOut f n
  let lim := limitVoltage (voltageMax f) pi.vd pi.vq
  { intake := n
    shapedId := shapedId f n
    iqEff := effectiveIq f n
    allowance := nextAllowance f n
    spends := spendsPeak f n
    meas := m
    pi := pi
    limited := lim
    onTimes := onTimesOf f (phaseVoltages (outputAngle n) lim.vd lim.vq)
    demand := powerOf lim.vd lim.vq (shapedId f n) (shapedIq f n)
    power := powerOf lim.vd lim.vq m.id m.iq }

/-- The computation record of a result, with the state, on-times and demand that the completion gives it (R81). Its A is the
one after the update of R66, before the bound of R67 (log 11). -/
def recordOf (f : Flight) (st : ChState) (on : OnTimes) (demand : Int) : CompRecord :=
  let r := compute f
  { state := st, valid := f.sample.isSome, meas := r.meas, idRef := r.shapedId, iqEff := r.iqEff, vd := r.limited.vd,
    vq := r.limited.vq, flags := r.limited.flags, onTimes := on, demand := demand, power := r.power, scale := f.scale,
    allowance := r.allowance, theta := r.intake.theta }

/-! ### Completion (R59) -/

/-- Step 1: the context takes the results; A is bounded by the Amax in force at completion (R59, R67), and the last unlimited
voltages and the held measurement come from a valid sample alone (R70, R73). -/
def Context.takeResult (x : Context) (f : Flight) : Context :=
  let r := compute f
  { x with
    idRef := r.intake.idRef, iqRef := r.intake.iqRef, theta := r.intake.theta, dTheta := r.intake.dTheta,
    peak := r.intake.peak, stale := r.intake.stale, hold := r.intake.hold, intD := r.pi.intD, intQ := r.pi.intQ,
    flags := r.limited.flags
    lastVd := if f.sample.isSome then r.pi.vd else x.lastVd
    lastVq := if f.sample.isSome then r.pi.vq else x.lastVq
    meas := if f.sample.isSome then r.meas else x.meas
    allowance := min r.allowance x.limitsG.amax }

/-- Steps 3 to 5: while the channel is in RUN or HOLD the on-times are handed to the carrier unit and D and the record are
replaced; otherwise D is 0 and the record carries on-times 0 (R21, R59). The computation is then no longer in flight. R21 does
not name the held measurement of R70; DESIGN CHOICE: a completion that follows R21 leaves it as it stands (log 20). -/
def Part.publish (p : Part) (c : Channel) (f : Flight) : Part :=
  let st := p.stateOf c
  let r := compute f
  if st.bridgeOn then
    (p.modDrive c (fun d => { d with waiting := some r.onTimes })).modCtx c
      (fun x => { x with demand := r.demand, record := recordOf f st r.onTimes r.demand, flight := none })
  else
    p.modCtx c (fun x => { x with demand := 0, record := recordOf f st .zero 0, flight := none })

/-- What step 2 of a completion decides (R11 to R13). -/
inductive Decision where
  | stay
  | returnToRun
  | enterHold
  | timeout
deriving DecidableEq, Repr

/-- The state decision of a completion, from the counters as it leaves them and the Ts and Th of its start (R11 to R13). -/
def decision (f : Flight) : Decision :=
  let n := intake f
  if f.state = .hold then
    if n.fresh then .returnToRun else if f.holdG.th ≤ n.hold then .timeout else .stay
  else if !n.fresh && f.holdG.ts ≤ n.stale then .enterHold
  else .stay

/-- Steps 2 to 5 of the completion of channel `c`, up to the first row of the table that they make due: HOLD_ENTRY or
SETPOINT_TIMEOUT, after which the publication follows. -/
def Part.decide (p : Part) (c : Channel) : Part × List Due :=
  match (p.ctx.get c).flight with
  | none => (p, [])
  | some f =>
    if (p.stateOf c).bridgeOn then
      match decision f with
      | .stay => (p.publish c f, [])
      | .returnToRun => ((p.enter c .run).publish c f, [])
      | .enterHold => (p, [.holdEntry c, .publish c])
      | .timeout => (p, [.setpointTimeout c, .publish c])
    else (p.publish c f, [])

/-- The completion of the computation of channel `c` (R59): step 1, PEAK_EXHAUSTED when a decrement has brought A to 0 (R66,
log 12), then step 2 and what follows. A completion that finds the channel in a bridge-off state follows R21. -/
def Part.complete (p : Part) (c : Channel) : Part × List Due :=
  match (p.ctx.get c).flight with
  | none => (p, [])
  | some f =>
    if (p.stateOf c).bridgeOn then
      let q := p.modCtx c (fun x => x.takeResult f)
      if (compute f).spends && (compute f).allowance = 0 then (q, [.peakExhausted c, .decide c]) else q.decide c
    else (p.publish c f, [])

/-- Entry to HOLD, with the hold counter at 0 (R11). -/
def Part.enterHold (p : Part) (c : Channel) : Part :=
  if p.stateOf c = .run then (p.modCtx c (fun x => { x with hold := 0 })).enter c .hold else p

end Sys2Proof.Machine
end

