-- ==== Sys2Proof/Machine/SenseUnit.lean ====
section
/-! DEFINITION. The sense unit (03): what it does with the two raw values of a valley by the channel's state (R41), conversion
(R42), capture (R44), the quiet counter (R45), offset tracking (R46 to R49), the consecutive-drop counter (R51) and the
overcurrent debounce counter (R52). The rows OVERCURRENT, SAMPLE_LOSS, CAPTURE_END, OFFSET_STEP and RECAPTURE are left due
(log 3). -/

namespace Sys2Proof.Machine

/-! ### Conversion (R42) -/

/-- One phase current from its raw value, offset and gain (R42). -/
def convert (raw : Nat) (off : Int) (gain : Nat) : Int := clampCurrent (roundDiv (((raw : Int) - off) * gain) 256)

/-- The current of phase c (R42). -/
def phaseC (ia ib : Int) : Int := clampCurrent (-ia - ib)

/-- The largest magnitude of the three phase currents (R52). -/
def peakCurrent (ia ib : Int) : Nat := max ia.natAbs (max ib.natAbs (phaseC ia ib).natAbs)

/-- The overcurrent debounce counter after a valid sample of magnitude `m` (R52). -/
def overcurrentCount (g : ProtectGroup) (m n : Nat) : Nat :=
  if g.itrip < m then n + 1 else if m < g.itrip - g.ih then 0 else n

/-! ### Offsets (R43 to R49) -/

/-- The value lies within 2048 +- Ro, bounds included. -/
def withinRange (ro : Nat) (v : Int) : Bool := Config.offsetCentre - ro ≤ v && v ≤ Config.offsetCentre + ro

/-- An offset clamped to 2048 +- Ro (R43, R47). -/
def clampOffset (ro : Nat) (v : Int) : Int := clampI (Config.offsetCentre - ro) (Config.offsetCentre + ro) v

/-- The offset that a capture sum gives: the mean of 64 samples rounded to nearest with halves upward (R44). -/
def captureOffset (sum : Nat) : Int := ((sum + 32) / 64 : Nat)

/-- A bucket that has reached the threshold, on either side (R47). -/
def bucketFull (bt : Nat) (b : Int) : Bool := (bt : Int) ≤ b || b ≤ -(bt : Int)

/-- The offset and the bucket of a phase after the step that a full bucket makes (R47). -/
def stepOffset (ro bt : Nat) (off bucket : Int) : Int × Int :=
  if (bt : Int) ≤ bucket then (clampOffset ro (off + 1), 0)
  else if bucket ≤ -(bt : Int) then (clampOffset ro (off - 1), 0)
  else (off, bucket)

/-- A quiet tracking sample adds its differences to the buckets and sets the excursion counter to 0 (R46, R47). -/
def Sense.quietSample (u : Sense) (dA dB : Int) : Sense :=
  { u with bucketA := u.bucketA + dA, bucketB := u.bucketB + dB, excursion := 0 }

/-- A tracking sample (R46): quiet samples fill the buckets, and a full bucket makes OFFSET_STEP due; excursions step
their counter, which at Nx makes RECAPTURE due (R48). -/
def Part.track (p : Part) (c : Channel) (rawA rawB : Raw) : Part × List Due :=
  let u := p.sense.get c
  let g := (p.ctx.get c).trackG
  let dA : Int := (rawA.val : Int) - u.offA
  let dB : Int := (rawB.val : Int) - u.offB
  if dA.natAbs ≤ g.wt && dB.natAbs ≤ g.wt then
    let u' := u.quietSample dA dB
    (p.modSense c (fun _ => u'),
      (if bucketFull g.bt u'.bucketA then [.offsetStep c .a] else []) ++
        (if bucketFull g.bt u'.bucketB then [.offsetStep c .b] else []))
  else
    (p.modSense c (fun u => { u with excursion := u.excursion + 1 }),
      if g.nx ≤ u.excursion + 1 then [.recapture c rawA rawB] else [])

/-- OFFSET_STEP of one phase (R47). -/
def Part.offsetStep (p : Part) (c : Channel) (ph : Phase) : Part :=
  let x := p.ctx.get c
  p.modSense c fun u =>
    match ph with
    | .a =>
      let r := stepOffset x.senseG.ro x.trackG.bt u.offA u.bucketA
      { u with offA := r.1, bucketA := r.2 }
    | .b =>
      let r := stepOffset x.senseG.ro x.trackG.bt u.offB u.bucketB
      { u with offB := r.1, bucketB := r.2 }

/-- RECAPTURE (R48, R49): the excursion counter is 0 again; raw values in range become the offsets, with
OFFSET_RECAPTURED, and a raw value out of range raises OFFSET_RANGE. -/
def Part.recapture (p : Part) (c : Channel) (rawA rawB : Raw) : Part :=
  let ro := (p.ctx.get c).senseG.ro
  let q := p.modSense c (fun u => { u with excursion := 0 })
  if withinRange ro rawA.val && withinRange ro rawB.val then
    (q.modSense c (fun u => { u with offA := rawA.val, offB := rawB.val, bucketA := 0, bucketB := 0 })).sendChannel
      .offsetRecaptured c .none
  else q.raise .offsetRange c

/-- The quiet counter steps down at every bridge-off valley (R45). -/
def Part.stepQuiet (p : Part) (c : Channel) : Part := p.modSense c (fun u => { u with quiet := u.quiet - 1 })

/-! ### Drops and overcurrent -/

/-- A dropped sample in CAPTURE, RUN or HOLD (R51): SAMPLE_LOSS is due when the counter stands at Dl or above. -/
def Part.countDrop (p : Part) (c : Channel) : Part × List Due :=
  (p.modSense c (fun u => { u with dropCount := u.dropCount + 1 }),
    if (p.ctx.get c).protectG.dl ≤ (p.sense.get c).dropCount + 1 then [.sampleLoss c] else [])

/-- A valid sample of a capture (R44): CAPTURE_END is due when the count reaches 64. -/
def Part.captureSample (p : Part) (c : Channel) (rawA rawB : Raw) : Part × List Due :=
  (p.modSense c (fun u => { u with sumA := u.sumA + rawA.val, sumB := u.sumB + rawB.val, count := u.count + 1, dropCount := 0 }),
    if Config.captureSamples ≤ (p.sense.get c).count + 1 then [.captureEnd c] else [])

/-- The currents of a valid sample in RUN or HOLD (R42). -/
def Part.currents (p : Part) (c : Channel) (rawA rawB : Raw) : Int × Int :=
  let u := p.sense.get c
  let g := (p.ctx.get c).senseG
  (convert rawA.val u.offA g.gA, convert rawB.val u.offB g.gB)

/-- A valid sample in RUN or HOLD (R41, R52): OVERCURRENT is due when the debounce counter stands at Dt or above. -/
def Part.runSample (p : Part) (c : Channel) (rawA rawB : Raw) : Part × List Due :=
  let i := p.currents c rawA rawB
  let g := (p.ctx.get c).protectG
  let n := overcurrentCount g (peakCurrent i.1 i.2) (p.sense.get c).ocCount
  (p.modSense c (fun u => { u with ocCount := n, dropCount := 0 }), if g.dt ≤ n then [.overcurrent c] else [])

/-! ### The sample at a valley (R41) -/

/-- What the sense unit does with the raw values and the verdict of a valley (R41). -/
def Part.senseSample (p : Part) (c : Channel) (rawA rawB : Raw) (valid : Bool) : Part × List Due :=
  match p.stateOf c with
  | .run => if valid then p.runSample c rawA rawB else p.countDrop c
  | .hold => if valid then p.runSample c rawA rawB else p.countDrop c
  | .capture =>
    let q := p.stepQuiet c
    if valid then q.captureSample c rawA rawB else q.countDrop c
  | .off => if 0 < (p.sense.get c).quiet then (p.stepQuiet c, []) else if valid then p.track c rawA rawB else (p, [])
  | .fault => if 0 < (p.sense.get c).quiet then (p.stepQuiet c, []) else if valid then p.track c rawA rawB else (p, [])
  | .safeOff => if 0 < (p.sense.get c).quiet then (p.stepQuiet c, []) else if valid then p.track c rawA rawB else (p, [])

/-- CAPTURE_END (R7, R8, R44): both offsets within range are installed with empty buckets and the channel enters RUN, its
legs driven with on-times of 0; an offset out of range raises OFFSET_RANGE. The sums and the count are 0 in both cases. -/
def Part.captureEnd (p : Part) (c : Channel) : Part :=
  if p.stateOf c = .capture then
    let u := p.sense.get c
    let ro := (p.ctx.get c).senseG.ro
    let a := captureOffset u.sumA
    let b := captureOffset u.sumB
    let q := p.modSense c (fun u => { u with sumA := 0, sumB := 0, count := 0 })
    if withinRange ro a && withinRange ro b then
      ((q.modSense c (fun u => { u with offA := a, offB := b, bucketA := 0, bucketB := 0 })).modDrive c
        (fun d => { d with legs := ⟨⟨.low, .none⟩, ⟨.low, .none⟩, ⟨.low, .none⟩⟩ })).enter c .run
    else q.raise .offsetRange c
  else p

end Sys2Proof.Machine
end

