-- ==== Sys2Proof/Machine/Agenda.lean ====
section
/-! DEFINITION. The steps that are due at an instant (log 3): what each does, how the part takes them when nothing spells them,
how a command that spells one takes it, and how every other command finds them taken. -/

namespace Sys2Proof.Machine

/-- What a due step does, and the steps that it makes due in its turn. -/
def Due.take (d : Due) (p : Part) : Part × List Due :=
  match d with
  | .busOperation _ raw => p.busOperation raw
  | .busUv cs => (p.raiseOn .busUv cs, [])
  | .review => p.review
  | .chopperBlocked => (p.blockChopper, [])
  | .chopperRestored => (p.restoreChopper, [])
  | .overcurrent c => (p.raise .overcurrent c, [])
  | .sampleLoss c => (p.raise .sampleLoss c, [])
  | .captureEnd c => (p.captureEnd c, [])
  | .offsetStep c ph => (p.offsetStep c ph, [])
  | .recapture c a b => (p.recapture c a b, [])
  | .peakExhausted c => (p.sendChannel .peakExhausted c .none, [])
  | .decide c => p.decide c
  | .holdEntry c => (p.enterHold c, [])
  | .setpointTimeout c => (p.raise .setpointTimeout c, [])
  | .publish c =>
    match (p.ctx.get c).flight with
    | some f => (p.publish c f, [])
    | none => (p, [])

/-- How many steps a due step can come to, itself and those it makes due. -/
def Due.weight : Due → Nat
  | .busOperation _ _ => 4
  | .busUv _ => 1
  | .review => 2
  | .chopperBlocked => 1
  | .chopperRestored => 1
  | .overcurrent _ => 1
  | .sampleLoss _ => 1
  | .captureEnd _ => 1
  | .offsetStep _ _ => 1
  | .recapture _ _ _ => 1
  | .peakExhausted _ => 1
  | .decide _ => 3
  | .holdEntry _ => 1
  | .setpointTimeout _ => 1
  | .publish _ => 1

/-- The weight of a list of due steps. -/
def dueWeight (ds : List Due) : Nat := (ds.map Due.weight).sum

/-- At most `n` due steps taken, oldest first; what a step makes due comes before the rest. -/
def settleFor : Nat → Part → List Due → Part × List Due
  | 0, p, ds => (p, ds)
  | _ + 1, p, [] => (p, [])
  | n + 1, p, d :: ds => settleFor n (d.take p).1 ((d.take p).2 ++ ds)

/-- All due steps taken. -/
def Part.settle (p : Part) (ds : List Due) : Part := (settleFor (dueWeight ds) p ds).1

/-- The rows of the table that come about inside another step: the due step that a row names. The raw values of a recapture
stand in the due step, not in the row. -/
inductive DueRow where
  | busUv
  | chopperBlocked
  | chopperRestored
  | overcurrent (ch : Channel)
  | sampleLoss (ch : Channel)
  | captureEnd (ch : Channel)
  | offsetStep (ch : Channel) (phase : Phase)
  | recapture (ch : Channel)
  | peakExhausted (ch : Channel)
  | holdEntry (ch : Channel)
  | setpointTimeout (ch : Channel)
deriving DecidableEq, Repr

/-- The row that a due step is, if it is one. -/
def Due.row : Due → Option DueRow
  | .busOperation _ _ => none
  | .busUv _ => some .busUv
  | .review => none
  | .chopperBlocked => some .chopperBlocked
  | .chopperRestored => some .chopperRestored
  | .overcurrent c => some (.overcurrent c)
  | .sampleLoss c => some (.sampleLoss c)
  | .captureEnd c => some (.captureEnd c)
  | .offsetStep c ph => some (.offsetStep c ph)
  | .recapture c _ _ => some (.recapture c)
  | .peakExhausted c => some (.peakExhausted c)
  | .decide _ => none
  | .holdEntry c => some (.holdEntry c)
  | .setpointTimeout c => some (.setpointTimeout c)
  | .publish _ => none

/-- The due steps taken up to and with the first that is the row `r`; all of them when none is. -/
def settleUpTo (r : DueRow) : Nat → Part → List Due → Part × List Due
  | 0, p, ds => (p, ds)
  | _ + 1, p, [] => (p, [])
  | n + 1, p, d :: ds =>
    if d.row = some r then ((d.take p).1, (d.take p).2 ++ ds) else settleUpTo r n (d.take p).1 ((d.take p).2 ++ ds)

/-- A command that spells the row `r`: the due steps before it are taken, then the row. A row that is not due has no effect
of its own (log 3). -/
def State.takeRow (s : State) (r : DueRow) : State :=
  let q := settleUpTo r (dueWeight s.due) s.part s.due
  { s with part := q.1, due := q.2 }

/-- All due steps are taken first, then `f`. -/
def State.actAfterAll (s : State) (f : Part → Part × List Due) : State :=
  { s with part := (f (s.part.settle s.due)).1, due := (f (s.part.settle s.due)).2 }

/-- The bus unit's operation that stands last among due steps and lets further commands of its instant come first: how many
after the next one, and its raw value. -/
def waitingBus (ds : List Due) : Option (Nat × Raw) :=
  match ds.getLast? with
  | some (.busOperation (n + 1) raw) => some (n, raw)
  | _ => none

/-- A command of any other row: the due steps are taken first, then `f`. A bus unit's operation that lets this command come
first is not taken yet, and comes after what the command makes due (R84, R107). -/
def State.act (s : State) (f : Part → Part × List Due) : State :=
  match waitingBus s.due with
  | some (n, raw) =>
    let p := s.part.settle s.due.dropLast
    { s with part := (f p).1, due := (f p).2 ++ [.busOperation n raw] }
  | none => s.actAfterAll f

/-- A command that makes no step due. -/
def State.run (s : State) (f : Part → Part) : State := s.act (fun p => (f p, []))

end Sys2Proof.Machine
end

