-- ==== Sys2Proof/Machine/CarrierUnit.lean ====
section
/-! DEFINITION. The carrier unit (02): the frame mark (R24, R29), the valley with its sample judgement (R25, R34 to R37), the
edges of the legs (R33), and the requests TIMING and SLOT (R26 to R32). -/

namespace Sys2Proof.Machine

/-! ### The frame mark (R24, R29) -/

/-- The carrier's part of a frame mark: pending P and slot table installed, the frame mark counter stepped, the SYNC count
advanced, SYNC high when it reaches N (R24, R29). -/
def Carrier.frameMarkStep (k : Carrier) : Carrier :=
  let n := k.syncCount + 1
  { k with
    marked := true
    period := k.pendingP.getD k.period
    pendingP := none
    table := k.pendingTable.getD k.table
    pendingTable := none
    frameMark := k.frameMark + 1
    syncCount := if k.divider ≤ n then 0 else n
    sync := decide (k.divider ≤ n) }

/-- FRAME_MARK (R24): the carrier's part, then the bus unit's operation at once or after further commands (log 4). No frame
mark occurs while RESET is low (R23). -/
def Part.frameMarkOp (p : Part) (raw : Raw) (before : Nat) : Part × List Due :=
  if p.held then (p, [])
  else
    let q := { p with carrier := p.carrier.frameMarkStep }
    if before = 0 then q.busOperation raw else (q, [.busOperation before raw])

/-! ### Legs and edges (R33, R34) -/

/-- The rise of a leg of on-time `x`, in ticks after the valley (R33). -/
def riseAt (period x : Nat) : Nat := (period - x) / 2

/-- The edges of a leg of on-time `x`: none for an on-time of 0 or of the whole period (R34). -/
def edgesOf (period x : Nat) : List Nat := if 0 < x && x < period then [riseAt period x, riseAt period x + x] else []

/-- The edges of the three legs. -/
def OnTimes.edges (t : OnTimes) (period : Nat) : List Nat :=
  edgesOf period t.a ++ edgesOf period t.b ++ edgesOf period t.c

/-- The leg at the start of its channel's period: high side on for an on-time of the whole period, else low side on; no edge
passed (R33). -/
def legAtValley (period x : Nat) : LegState := { level := if x = period && 0 < x then .high else .low, passed := .none }

/-- The legs at the start of a channel's period (R33). -/
def legsAtValley (period : Nat) (t : OnTimes) : Legs :=
  { a := legAtValley period t.a, b := legAtValley period t.b, c := legAtValley period t.c }

/-- The next edge of a leg of on-time `x`: its rise, then its fall, then none until the next valley (R33). -/
def LegState.edge (l : LegState) (period x : Nat) : LegState :=
  if 0 < x && x < period then
    match l.passed with
    | .none => { level := .high, passed := .rise }
    | .rise => { level := .low, passed := .fall }
    | .fall => l
  else l

/-- LEG_EDGE (R33): only the legs of a channel in RUN or HOLD have edges (R34). -/
def Part.legEdge (p : Part) (c : Channel) (leg : Leg) : Part :=
  if (p.stateOf c).bridgeOn then
    p.modDrive c fun d =>
      match leg with
      | .a => { d with legs := { d.legs with a := d.legs.a.edge p.carrier.period d.onTimes.a } }
      | .b => { d with legs := { d.legs with b := d.legs.b.edge p.carrier.period d.onTimes.b } }
      | .c => { d with legs := { d.legs with c := d.legs.c.edge p.carrier.period d.onTimes.c } }
  else p

/-! ### Sample judgement (R36) -/

/-- The carrier slot of a channel in a slot table (R30; log 18). -/
def slotIn (t : Six Channel) (c : Channel) : CarrierSlot := (channels.find? (fun k => t.get k = c)).getD 0

/-- The time from channel `j`'s last valley to channel `i`'s valley, in ticks (R36). -/
def valleyGap (k : Carrier) (i j : Channel) : Nat :=
  ((slotIn k.table i).val + 6 - (slotIn k.table j).val) % 6 * (k.period / 6)

/-- An edge lies within `w` of `d` (R36). -/
def near (w d e : Nat) : Bool := ((e : Int) - d).natAbs ≤ w

/-- Channel `j` disturbs the sample of channel `i` (R36). -/
def Part.disturbs (p : Part) (i j : Channel) : Bool :=
  j ≠ i && (p.stateOf j).bridgeOn &&
    ((p.carrier.drives.get j).onTimes.edges p.carrier.period).any (near p.carrier.blank (valleyGap p.carrier i j))

/-- The verdict on the sample of channel `i` at its valley: valid when no other channel disturbs it (R36). -/
def Part.judge (p : Part) (i : Channel) : Bool := channels.all (fun j => !p.disturbs i j)

/-! ### The valley (R25) -/

/-- Step 1 of a valley: the waiting on-times become the on-times in force (R35), and the legs of a channel in RUN or HOLD
begin their period (R33). -/
def Part.loadOnTimes (p : Part) (c : Channel) : Part :=
  p.modDrive c fun d =>
    let t := d.waiting.getD d.onTimes
    { d with onTimes := t, waiting := none,
             legs := if (p.stateOf c).bridgeOn then legsAtValley p.carrier.period t else d.legs }

/-- The verdict of a valley recorded, with SAMPLE_DROPPED for a dropped sample (R37). -/
def Part.recordVerdict (p : Part) (c : Channel) (valid : Bool) : Part :=
  let q := p.modDrive c (fun d => { d with valid := valid })
  if valid then q else q.sendChannel .sampleDropped c .none

/-- SYNC goes low at the valley of carrier slot 1 (R29). -/
def Part.syncEnd (p : Part) (c : Channel) : Part :=
  if slotIn p.carrier.table c = 1 then { p with carrier := { p.carrier with sync := false } } else p

/-- The computation of a valley that the sense unit has handled: it starts when the channel is in RUN or HOLD, unless a cause
of the sample is due and comes first (R10, R21). -/
def Part.startAfter (p : Part) (c : Channel) (sample : Option (Int × Int)) (o : ValleyOrder) (ds : List Due) : Part :=
  if (p.stateOf c).bridgeOn && (o = .startFirst || ds.isEmpty) then p.startComputation c sample else p

/-- A computation still in flight at its channel's next valley has completed by then (R10, R25; log 5). -/
def Part.completeBefore (p : Part) (c : Channel) : Part := ((p.complete c).1).settle (p.complete c).2

/-- The four steps of a valley of channel `c` (R25). -/
def Part.valleyOp (p : Part) (c : Channel) (rawA rawB : Raw) (o : ValleyOrder) : Part × List Due :=
  if p.held || !p.carrier.marked then (p, [])
  else
    let p1 := ((p.completeBefore c).syncEnd c).loadOnTimes c
    let valid := p1.judge c
    let p2 := p1.recordVerdict c valid
    let sample := if valid then some (p2.currents c rawA rawB) else none
    let r := p2.senseSample c rawA rawB valid
    (r.1.startAfter c sample o r.2, r.2)

end Sys2Proof.Machine
end

