-- ==== Sys2Proof/Machine/LinkUnit.lean ====
section
/-! DEFINITION. The link interfaces (07): the CRC (R123), replies (R122, R125, R192), the checks of a frame (R124), how a request is
taken (R125), and the requests NOP and LINK_RESET (R129, R132). -/

namespace Sys2Proof.Machine

/-! ### CRC and replies -/

/-- One bit of the CRC register: shifted left, with 0x2F added when the bit shifted out is 1 (R123). -/
def crcShift (r : Byte) : Byte := if r.msb then (r <<< 1) ^^^ 0x2F else r <<< 1

/-- One byte added into the CRC register, then eight shifts (R123). -/
def crcByte (r b : Byte) : Byte :=
  crcShift (crcShift (crcShift (crcShift (crcShift (crcShift (crcShift (crcShift (r ^^^ b))))))))

/-- The CRC of a list of bytes (R123). -/
def crc8 (bytes : List Byte) : Byte := bytes.foldl crcByte 0xFF

/-- The bytes that kind, length and payload of a reply or request give before the CRC (R121, R122). -/
def frameBody (kind : Byte) (payload : List Byte) : List Byte := kind :: BitVec.ofNat 8 payload.length :: payload

/-- A reply formed whole, with its CRC (R122, R123). -/
def Reply.form (k : ReplyKind) (payload : List Byte) : Reply :=
  { kind := k, payload := payload, crc := crc8 (frameBody k.code payload) }

/-- The bytes that a frame shifts out for a reply (R122). -/
def Reply.bytes (r : Reply) : List Byte := frameBody r.kind.code r.payload ++ [r.crc]

/-- The reply buffer of link `l` replaced. -/
def Part.setReply (p : Part) (l : Link) (r : Reply) : Part := p.modLink l (fun i => { i with reply := r })

/-- The DONE reply to a request of kind `k` (R125, R192). -/
def Part.done (p : Part) (l : Link) (k : Kind) (fields : List Byte) : Part :=
  p.setReply l (.form .done (k.code :: fields))

/-- The REFUSED reply to a request of kind `k` (R125, R192). -/
def Part.refuse (p : Part) (l : Link) (k : Kind) (r : Reason) : Part :=
  p.setReply l (.form .refused [k.code, r.code])

/-- The HELD_ELSEWHERE refusal, with the holder of each channel named in ascending channel order (R135, R192). -/
def Part.refuseHeld (p : Part) (l : Link) (k : Kind) (cs : List Channel) : Part :=
  p.setReply l (.form .refused
    ([k.code, Reason.heldElsewhere.code] ++ cs.flatMap (fun c => put8 c.val ++ put8 (holderCode (p.binding.holders.get c)))))

/-! ### Frames (R120 to R125) -/

/-- FRAME_START (R121, R122): select falls and a frame begins, which shifts out the reply buffer as it stands. While RESET
is low no frame is received, and a select line that is low already does not fall (R120). -/
def Part.frameStart (p : Part) (l : Link) : Part :=
  if p.held then p
  else
    match (p.links.get l).rx with
    | .idle => p.modLink l (fun i => { i with rx := .inFrame [], shiftOut := some i.reply.bytes })
    | .inFrame _ => p
    | .ignoring => p

/-- What data out shifts while `n` bytes are clocked: the reply from its first byte, cut off where the clock ends, and 0x00 for
each byte clocked after its last (R122). -/
def clockOut (reply : List Byte) (n : Nat) : List Byte := reply.take n ++ List.replicate (n - reply.length) 0x00

/-- What data out has shifted at the end of a frame of `n` bytes: the reply that the frame's start took, or the buffer as it
stands when no command marked that start (R122; log 8, log 23). -/
def LinkIf.clockedOut (i : LinkIf) (n : Nat) : List Byte := clockOut (i.shiftOut.getD i.reply.bytes) n

/-- Select rises: the frame has ended, data out has shifted `out` and is in high impedance (R121, R122). -/
def Part.endFrame (p : Part) (l : Link) (out : List Byte) : Part :=
  p.modLink l (fun i => { i with rx := .idle, shiftOut := none, lastOut := out })

/-- Select rises after bytes that are ignored: no frame was begun, and data out stayed in high impedance (R120; log 21). -/
def Part.endIgnored (p : Part) (l : Link) : Part := p.modLink l (fun i => { i with rx := .idle, shiftOut := none })

/-- An open batch is lost with BATCH_LOST to its own link's queue (R124, R150). -/
def Part.loseBatch (p : Part) (m : Motion) : Part :=
  ({ p with batches := p.batches.set m none }).send m.link .batchLost none .none

/-- A rejected frame (R124): the reply is FRAME_ERROR, and an open batch of a motion link is lost. -/
def Part.rejectFrame (p : Part) (l : Link) (c : Subcode) : Part :=
  let q := p.setReply l (.form .frameError [c.code])
  match l.motion with
  | some m => if (p.batches.get m).isSome then q.loseBatch m else q
  | none => q

/-- What select's rise on link `l` does with a frame of `n` bytes that `f` takes. While RESET is low no frame is received, and the
end of a frame whose bytes are ignored takes no request (R120). -/
def Part.takeFrame (p : Part) (l : Link) (n : Nat) (f : Part → Part) : Part :=
  if p.held then p
  else
    match (p.links.get l).rx with
    | .ignoring => p.endIgnored l
    | .idle => (f p).endFrame l ((p.links.get l).clockedOut n)
    | .inFrame _ => (f p).endFrame l ((p.links.get l).clockedOut n)

/-- IGNORED_FRAME_END (R120): the receive logic becomes idle and nothing is taken. -/
def Part.ignoredFrameEnd (p : Part) (l : Link) : Part :=
  if p.held then p
  else
    match (p.links.get l).rx with
    | .ignoring => p.endIgnored l
    | .idle => p
    | .inFrame _ => p

/-- The checks of a frame of `bytes`, in order (R124): the subcode of the first that fails, or kind and payload. -/
def checkFrame (bytes : List Byte) (lastWhole : Bool) : Except Subcode (Kind × List Byte) :=
  match bytes with
  | kind :: len :: rest =>
    if rest.isEmpty || Config.maxPayload < len.toNat || rest.length ≠ len.toNat + 1 || !lastWhole then .error .length
    else if rest.getLast? ≠ some (crc8 (kind :: len :: rest.dropLast)) then .error .crc
    else
      match kindOf kind with
      | some k => .ok (k, rest.dropLast)
      | none => .error .kind
  | _ => .error .length

/-! ### Taking a request (R125) -/

/-- A request of both sets in a frame of kind, length, payload and CRC: judged by `f`. A payload that no frame can carry is a frame
of wrong length (R121, R124). -/
def Part.request (p : Part) (l : Link) (payload : List Byte) (f : Part → Part) : Part :=
  p.takeFrame l (payload.length + 3) (fun q => if payload.length ≤ Config.maxPayload then f q else q.rejectFrame l .length)

/-- Check 1 of R125 for a kind of the motion set. -/
def Part.onMotion (p : Part) (l : Link) (k : Kind) (f : Motion → Part → Part) : Part :=
  match l.motion with
  | some m => f m p
  | none => p.refuse l k .wrongLink

/-- Check 1 of R125 for a kind of the set of Link S. -/
def Part.onSupervisor (p : Part) (l : Link) (k : Kind) (f : Part → Part) : Part :=
  match l with
  | .a => p.refuse l k .wrongLink
  | .b => p.refuse l k .wrongLink
  | .s => f p

/-- NOP (R129): done with any payload, with no effect. -/
def Part.nopReq (p : Part) (l : Link) : Part := p.done l .nop []

/-- LINK_RESET (R132): the open batch, the queue and the overrun flag of the link are cleared, and the reply is EMPTY. -/
def Part.linkResetReq (p : Part) (l : Link) (payload : List Byte) : Part :=
  if payload.isEmpty then
    let q := p.modLink l (fun i => ({ i with queue := [], overrun := false, reply := .form .empty [] }).follow)
    match l.motion with
    | some m => { q with batches := q.batches.set m none }
    | none => q
  else p.refuse l .linkReset .badValue

end Sys2Proof.Machine
end

