-- ==== Sys2Proof/Machine/BatchUnit.lean ====
section
/-! DEFINITION. Setpoint batches (09): SET and SET with END (R148 to R156), delivery, and DISCARD (R160). -/

namespace Sys2Proof.Machine

/-- The walk over the SET records of a request (R149): the refusal of the first record whose slot is unbound or whose angle
blocks do not fit the entry. -/
def walkRecords (map : SlotMap) : List Record → Option Reason
  | [] => none
  | .peak :: rs => walkRecords map rs
  | .set k _ _ blocks :: rs =>
    match map.get k with
    | none => some .slotUnbound
    | some e => if blocks.length = e.members.length then walkRecords map rs else some .badValue

/-- The records of the open batch of a motion link, none when no batch is open. -/
def Part.openRecords (p : Part) (m : Motion) : List Record := (p.batches.get m).getD []

/-- The open batch with records appended; a batch is never opened with no records (R147, R151). -/
def Part.appendRecords (p : Part) (m : Motion) (rs : List Record) : Part :=
  { p with batches := p.batches.set m (if (p.openRecords m ++ rs).isEmpty then none else some (p.openRecords m ++ rs)) }

/-- Prefix marking (R154): the SET records of a batch, each with the mark that a PEAK record directly before it gives. `before` says
that the record before the list is a PEAK record. -/
def markRecords : Bool → List Record → List (Record × Bool)
  | _, [] => []
  | _, .peak :: rs => markRecords true rs
  | before, .set k i q b :: rs => (.set k i q b, before) :: markRecords false rs

/-- The number of PEAK records that are dropped: those followed by another PEAK record or by nothing (R154). -/
def droppedPeaks : List Record → Nat
  | [] => 0
  | [.peak] => 1
  | .peak :: .peak :: rs => 1 + droppedPeaks (.peak :: rs)
  | .peak :: .set _ _ _ _ :: rs => droppedPeaks rs
  | .set _ _ _ _ :: rs => droppedPeaks rs

/-- An event sent `n` times to one link. -/
def Part.sendTimes (p : Part) (l : Link) (k : EventKind) : Nat → Part
  | 0 => p
  | n + 1 => (p.send l k none .none).sendTimes l k n

/-- The pending setpoint that a record gives a member (R156). -/
def setpointOf (i q : Int) (b : AngleBlock) (peak : Bool) : Setpoint :=
  { idRef := i, iqRef := q, theta := b.theta, dTheta := b.dTheta, peak := peak, fresh := true }

/-- A member reached by a matching record takes its setpoint in CAPTURE, RUN or HOLD (R156); with it, the channels that have
taken one. -/
def deliverMember (i q : Int) (peak : Bool) (acc : Part × List Channel) (x : Member × AngleBlock) : Part × List Channel :=
  if (acc.1.stateOf x.1.ch).active then
    (acc.1.modCtx x.1.ch (fun y => { y with setpoint := some (setpointOf i q x.2 peak) }),
      if acc.2.contains x.1.ch then acc.2 else acc.2 ++ [x.1.ch])
  else acc

/-- One record of a delivery (R155): matched against the entry of its slot as it stands, or passed over. -/
def deliverRecord (map : SlotMap) (acc : Part × List Channel) (r : Record × Bool) : Part × List Channel :=
  match r.1 with
  | .peak => acc
  | .set k i q blocks =>
    match map.get k with
    | none => acc
    | some e =>
      if blocks.length = e.members.length then (e.members.zip blocks).foldl (deliverMember i q r.2) acc else acc

/-- The delivery of the open batch of a motion link (R153): prefix marking, the SET records in batch order, the batch absent,
the apply toggle flipped; and the number of channels that took a setpoint. -/
def Part.deliver (p : Part) (m : Motion) : Part × Nat :=
  let rs := p.openRecords m
  let q := p.sendTimes m.link .prefixDropped (droppedPeaks rs)
  let r := (markRecords false rs).foldl (deliverRecord (p.binding.maps.get m)) (q, [])
  let b := r.1.binding
  ({ r.1 with batches := r.1.batches.set m none, binding := { b with toggles := b.toggles.set m (!b.toggles.get m) } },
    r.2.length)

/-- The reply to a SET done (R151, 12.3). -/
def Part.setReplied (p : Part) (m : Motion) (endMark : Bool) (reached : Nat) : Part :=
  p.done m.link .set (put8 (bit endMark) ++ put8 (p.openRecords m).length ++ put8 (bit (p.binding.toggles.get m)) ++ put8 reached)

/-- SET (R148 to R153) with the END mark and the bytes after the flag byte. -/
def Part.setReq (p : Part) (l : Link) (endMark : Bool) (bytes : List Byte) : Part :=
  p.onMotion l .set fun m p =>
    match recordsOf bytes with
    | none => p.refuse l .set .badValue
    | some rs =>
      match walkRecords (p.binding.maps.get m) rs with
      | some r => p.refuse l .set r
      | none =>
        if Config.batchCapacity < (p.openRecords m).length + rs.length then (p.loseBatch m).refuse l .set .batchFull
        else
          let q := p.appendRecords m rs
          if endMark then (q.deliver m).1.setReplied m true (q.deliver m).2 else q.setReplied m false 0

/-- DISCARD (R160). -/
def Part.discardReq (p : Part) (l : Link) (payload : List Byte) : Part :=
  p.onMotion l .discard fun m p =>
    if payload.isEmpty then
      ({ p with batches := p.batches.set m none }).done l .discard (put8 (p.openRecords m).length)
    else p.refuse l .discard .badValue

end Sys2Proof.Machine
end

