-- ==== Sys2Proof/Machine/BindingUnit.lean ====
section
/-! DEFINITION. The binding unit (08): CLAIM, RELEASE, MAP, UNMAP and REVOKE (R135 to R143). -/

namespace Sys2Proof.Machine

/-- The holders of all six channels as a reply carries them (R135, 12.3). -/
def Part.holderBytes (p : Part) : List Byte := channels.flatMap (fun c => put8 (holderCode (p.binding.holders.get c)))

/-- A channel is in an entry of either slot map (R137, R139). -/
def Part.mapped (p : Part) (c : Channel) : Bool := (p.entryOf c).isSome

/-- A channel is held by the motion link `m`. -/
def Part.heldBy (p : Part) (m : Motion) (c : Channel) : Bool := p.binding.holders.get c = some m

/-- A channel is held by the other motion link than `m` (R135). -/
def Part.heldElsewhere (p : Part) (m : Motion) (c : Channel) : Bool :=
  (p.binding.holders.get c).isSome && !p.heldBy m c

/-- CLAIM (R135): all named channels are taken, or none. -/
def Part.claimReq (p : Part) (l : Link) (payload : List Byte) : Part :=
  p.onMotion l .claim fun m p =>
    match onlyMask payload with
    | none => p.refuse l .claim .badValue
    | some cs =>
      if cs.any (p.heldElsewhere m) then p.refuseHeld l .claim cs
      else
        let q := p.forChannels cs (fun c q => q.setHolder c (some m))
        q.done l .claim q.holderBytes

/-- The claim of a channel cleared, with the seen set of the link that held it (R137, R142). -/
def Part.unhold (p : Part) (m : Motion) (c : Channel) : Part := (p.setHolder c none).setSeen m.link c .empty

/-- RELEASE (R137). -/
def Part.releaseReq (p : Part) (l : Link) (payload : List Byte) : Part :=
  p.onMotion l .release fun m p =>
    match onlyMask payload with
    | none => p.refuse l .release .badValue
    | some cs =>
      if cs.any (fun c => !p.heldBy m c) then p.refuse l .release .notHeld
      else if cs.any p.mapped then p.refuse l .release .slotBound
      else
        let q := p.forChannels cs (fun c q => q.unhold m c)
        q.done l .release q.holderBytes

/-- The members of an entry as a reply carries them (12.3). -/
def SlotEntry.memberBytes (e : SlotEntry) : List Byte :=
  e.members.flatMap (fun m => put8 m.ch.val ++ put8 (bit m.reversed))

/-- MAP (R139, R140): the checks in their order, then the link slot is bound. -/
def Part.mapReq (p : Part) (l : Link) (payload : List Byte) : Part :=
  p.onMotion l .map fun m p =>
    match mapFields payload with
    | none => p.refuse l .map .badValue
    | some (k, e) =>
      if ((p.binding.maps.get m).get k).isSome then p.refuse l .map .slotBound
      else if !e.chans.Nodup then p.refuse l .map .badValue
      else if e.chans.any (fun c => !p.heldBy m c) then p.refuse l .map .notHeld
      else if e.chans.any p.mapped then p.refuse l .map .slotBound
      else (p.setSlot m k (some e)).done l .map (put8 k.val ++ e.memberBytes)

/-- The pending setpoint of every channel of a list made absent (R141, R142). -/
def Part.dropSetpoints (p : Part) (cs : List Channel) : Part :=
  p.forChannels cs (fun c q => q.modCtx c (fun x => { x with setpoint := none }))

/-- UNMAP (R141). -/
def Part.unmapReq (p : Part) (l : Link) (payload : List Byte) : Part :=
  p.onMotion l .unmap fun m p =>
    match onlySlot payload with
    | none => p.refuse l .unmap .badValue
    | some k =>
      match (p.binding.maps.get m).get k with
      | none => p.refuse l .unmap .slotUnbound
      | some e =>
        if e.chans.any (fun c => (p.stateOf c).active) then p.refuse l .unmap .channelActive
        else ((p.setSlot m k none).dropSetpoints e.chans).done l .unmap (put8 k.val)

/-- A channel in CAPTURE, RUN or HOLD enters OFF (R16, R142); any other channel stays as it is. -/
def Part.stop (p : Part) (c : Channel) : Part := if (p.stateOf c).active then p.leaveTo c .off else p

/-- Step 2 of a revocation (R142): the entry that names the channel is removed, its partner stopped, and the pending
setpoints of its members made absent. -/
def Part.removeEntry (p : Part) (c : Channel) : Part :=
  match p.entryOf c with
  | some (m, k, e) =>
    let q := p.setSlot m k none
    let q := match p.partnerOf c with
      | some d => q.stop d
      | none => q
    q.dropSetpoints e.chans
  | none => p

/-- One named channel of a REVOKE (R142, R143): when it is held it is stopped, its entry removed and its claim cleared, with
CLAIM_REVOKED to the former holder and to Link S. -/
def Part.revokeOne (p : Part) (c : Channel) : Part :=
  match p.binding.holders.get c with
  | some m =>
    let q := ((p.stop c).removeEntry c).unhold m c
    (q.send m.link .claimRevoked (some c) .none).send .s .claimRevoked (some c) .none
  | none => p

/-- REVOKE (R142): the named channels one after another in ascending order. -/
def Part.revokeReq (p : Part) (l : Link) (payload : List Byte) : Part :=
  p.onSupervisor l .revoke fun p =>
    match onlyMask payload with
    | none => p.refuse l .revoke .badValue
    | some cs =>
      let q := p.forChannels cs (fun c q => q.revokeOne c)
      q.done l .revoke q.holderBytes

end Sys2Proof.Machine
end

