-- ==== Sys2Proof/Machine/ChannelRequests.lean ====
section
/-! DEFINITION. The requests that change the state of the channels of a link slot: ENABLE (R4, R5) and DISABLE (R16). -/

namespace Sys2Proof.Machine

/-- Check 2 of ENABLE: the refusal that the states of the members give (R4). -/
def enableStates (sts : List ChState) : Option Reason :=
  if sts.all (fun st => st = .off) then none
  else if sts.any (fun st => st.active) then some .channelActive
  else if sts.any (fun st => st = .fault) then some .faultPresent
  else some .torqueWithdrawn

/-- The five groups that ENABLE requires are loaded (R4, check 3). -/
def Marks.complete (m : Marks) : Bool := m.sense && m.loop && m.limits && m.protect && m.hold

/-- Checks 2 to 5 of ENABLE on the members of the slot: the first that fails (R4). -/
def Part.enableRefusal (p : Part) (cs : List Channel) : Option Reason :=
  match enableStates (cs.map p.stateOf) with
  | some r => some r
  | none =>
    if cs.any (fun c => !(p.ctx.get c).marks.complete) then some .paramsIncomplete
    else if !p.bus.budgetSet then some .budgetUnset
    else if p.bus.vdc < p.bus.uv + p.bus.uvh then some .busLow
    else none

/-- What the context of a channel holds at the entry to CAPTURE (R5, R94). -/
def Context.enterCapture (x : Context) : Context :=
  { x with setpoint := none, idRef := 0, iqRef := 0, theta := 0, dTheta := 0, peak := false, intD := 0, intQ := 0,
           flags := .clear, lastVd := 0, lastVq := 0, meas := .zero, stale := 0, hold := 0, demand := 0 }

/-- What the sense unit holds at the entry to CAPTURE (R5). -/
def Sense.enterCapture (u : Sense) : Sense :=
  { u with sumA := 0, sumB := 0, count := 0, bucketA := 0, bucketB := 0, excursion := 0, dropCount := 0 }

/-- Entry of a channel to CAPTURE (R5): the legs stay off and the on-times in force stay 0 (R35). -/
def Part.enterCapture (p : Part) (c : Channel) : Part :=
  (((p.modDrive c (fun d => { d with onTimes := .zero, waiting := none })).modCtx c Context.enterCapture).modSense c
    Sense.enterCapture).enter c .capture

/-- ENABLE (R4, R5): all members of a bound slot enter CAPTURE together, in ascending channel order, or none does. -/
def Part.enableReq (p : Part) (l : Link) (payload : List Byte) : Part :=
  p.onMotion l .enable fun m p =>
    match onlySlot payload with
    | none => p.refuse l .enable .badValue
    | some k =>
      match (p.binding.maps.get m).get k with
      | none => p.refuse l .enable .slotUnbound
      | some e =>
        match p.enableRefusal e.chans with
        | some r => p.refuse l .enable r
        | none => (p.forChannels e.ascending (fun c q => q.enterCapture c)).done l .enable []

/-- DISABLE (R16): the members in CAPTURE, RUN or HOLD enter OFF, in ascending channel order. -/
def Part.disableReq (p : Part) (l : Link) (payload : List Byte) : Part :=
  p.onMotion l .disable fun m p =>
    match onlySlot payload with
    | none => p.refuse l .disable .badValue
    | some k =>
      match (p.binding.maps.get m).get k with
      | none => p.refuse l .disable .slotUnbound
      | some e => (p.forChannels e.ascending (fun c q => q.stop c)).done l .disable []

end Sys2Proof.Machine
end

