-- ==== Sys2Proof/Machine/FaultUnit.lean ====
section
/-! DEFINITION. The fault and event unit's requests (11): STATUS (R178 to R180), ACK (R182, R183), READ (R185) and EVENTS (R188). -/

namespace Sys2Proof.Machine

/-! ### STATUS -/

/-- A member entry of a STATUS reply (12.6); `head` is its first byte. -/
def Part.statusEntry (p : Part) (head : Nat) (c : Channel) : List Byte :=
  put8 head ++ put8 (p.stateOf c).code ++ put8 (p.causesOf c).code ++ put8 (p.causesOf c).topCode ++ put8 (p.statusFlags c)

/-- A link slot of a motion link's STATUS reply: the count, then the member entries (12.6). -/
def Part.statusSlot (p : Part) : Option SlotEntry → List Byte
  | none => put8 0
  | some e => put8 e.members.length ++ e.members.flatMap (fun m => p.statusEntry (m.ch.val + bit m.reversed * 128) m.ch)

/-- The payload of STATUS on a motion link after the kind answered (R178, 12.6). -/
def Part.statusMotion (p : Part) (m : Motion) : List Byte :=
  (p.binding.maps.get m).toList.flatMap p.statusSlot ++
    put8 (bit (p.binding.toggles.get m) + bit (p.links.get m.link).overrun * 2) ++ put8 (p.links.get m.link).queue.length

/-- The payload of STATUS on Link S after the kind answered (R179, 12.6). -/
def Part.statusSupervisor (p : Part) : List Byte :=
  channels.flatMap (fun c => p.statusEntry (c.val + holderCode (p.binding.holders.get c) * 16) c) ++
    put16 p.bus.vdc ++ put8 p.bus.condition.code ++ put32 p.bus.heat ++
    put8 (bit p.bus.blocked + bit p.torque.ten * 2 + bit p.torque.drop * 4 + bit p.links.s.overrun * 8) ++
    put8 p.links.s.queue.length

/-- The payload of STATUS on link `l`. -/
def Part.statusBytes (p : Part) (l : Link) : List Byte :=
  match l.motion with
  | some m => p.statusMotion m
  | none => p.statusSupervisor

/-- The channels that STATUS reports to link `l` (R178, R179): on a motion link the members of its slots. -/
def Part.reported (p : Part) (l : Link) : List Channel :=
  match l.motion with
  | some m => channels.filter (fun c => (p.binding.maps.get m).toList.any (fun e => e.any (fun x => x.names c)))
  | none => channels

/-- The seen sets of the reported channels become their cause sets (R180). -/
def Part.recordSeen (p : Part) (l : Link) : Part :=
  p.forChannels (p.reported l) (fun c q => q.setSeen l c (q.causesOf c))

/-- STATUS (R178 to R180). -/
def Part.statusReq (p : Part) (l : Link) (payload : List Byte) : Part :=
  if payload.isEmpty then (p.recordSeen l).done l .status (p.statusBytes l) else p.refuse l .status .badValue

/-! ### ACK -/

/-- The cause set that an ACK of link `l` leaves a channel: its seen causes removed, BRIDGE kept while the line is active
(R183, R55). -/
def Part.acked (p : Part) (l : Link) (c : Channel) : CauseSet :=
  let x := (p.causesOf c).diff (p.seenOf l c)
  if p.torque.bflt.get c then { x with bridge := (p.causesOf c).bridge } else x

/-- One channel of an ACK (R183). -/
def Part.ackOne (p : Part) (l : Link) (c : Channel) : Part :=
  let q := (p.setCauses c (p.acked l c)).setSeen l c .empty
  if p.stateOf c = .fault && (p.acked l c).isEmpty then q.enter c .off else q

/-- The payload of an ACK done: for each channel handled, the channel, its state and its cause set (12.3). -/
def Part.ackBytes (p : Part) (cs : List Channel) : List Byte :=
  put8 cs.length ++ cs.flatMap (fun c => put8 c.val ++ put8 (p.stateOf c).code ++ put8 (p.causesOf c).code)

/-- An ACK of channels in ascending order, done (R183). -/
def Part.ackChannels (p : Part) (l : Link) (cs : List Channel) : Part :=
  let q := p.forChannels cs (fun c q => q.ackOne l c)
  q.done l .ack (q.ackBytes cs)

/-- ACK (R182, R183): a link slot on a motion link, a channel mask on Link S. -/
def Part.ackReq (p : Part) (l : Link) (payload : List Byte) : Part :=
  match l.motion with
  | some m =>
    match onlySlot payload with
    | none => p.refuse l .ack .badValue
    | some k =>
      match (p.binding.maps.get m).get k with
      | none => p.refuse l .ack .notHeld
      | some e => p.ackChannels l e.ascending
  | none =>
    match onlyMask payload with
    | none => p.refuse l .ack .badValue
    | some cs => p.ackChannels l cs

/-! ### READ and EVENTS -/

/-- The link may read channel `c` (R185): Link S every channel, a motion link those it holds. -/
def Part.mayRead (p : Part) (l : Link) (c : Channel) : Bool :=
  match l.motion with
  | some m => p.binding.holders.get c = some m
  | none => true

/-- READ (R185). -/
def Part.readReq (p : Part) (l : Link) (payload : List Byte) : Part :=
  match onlyChannel payload with
  | none => p.refuse l .read .badValue
  | some c =>
    if p.mayRead l c then p.done l .read (put8 c.val ++ (p.ctx.get c).record.bytes) else p.refuse l .read .notHeld

/-- EVENTS (R188): up to 8 of the oldest entries leave the queue, and the overrun flag is returned and cleared. -/
def Part.eventsReq (p : Part) (l : Link) (payload : List Byte) : Part :=
  if payload.isEmpty then
    let i := p.links.get l
    let es := i.queue.take Config.eventsPerReply
    (p.modLink l (fun i => ({ i with queue := i.queue.drop Config.eventsPerReply, overrun := false }).follow)).done l .events
      (put8 es.length ++ put8 (bit i.overrun) ++ es.flatMap QueueEntry.bytes)
  else p.refuse l .events .badValue

end Sys2Proof.Machine
end

