-- ==== Sys2Proof/Machine/ParamUnit.lean ====
section
/-! DEFINITION. Channel parameters (10): the six groups of PARAM with their clamps (R163 to R171) and CEILING (R172). -/

namespace Sys2Proof.Machine

/-- The reply to a PARAM done: channel, group, the fields as stored, the loaded marks, and what LIMITS adds (R164, 12.3). -/
def Part.paramReplied (p : Part) (l : Link) (c : Channel) (group : Nat) (fields more : List Byte) : Part :=
  p.done l .param (put8 c.val ++ put8 group ++ fields ++ put8 (p.ctx.get c).marks.code ++ more)

/-- The checks that every PARAM shares (R163, R164): the link, the structure of channel index and fields, the holder. `store` has
what is left. -/
def Part.paramReq {α : Type} (p : Part) (l : Link) (chByte : Byte) (fields : Option α) (store : Channel → α → Part → Part) :
    Part :=
  p.onMotion l .param fun m p =>
    match channelOf chByte, fields with
    | some c, some g => if p.binding.holders.get c = some m then store c g p else p.refuse l .param .notHeld
    | _, _ => p.refuse l .param .badValue

/-! ### SENSE (R43, R166) -/

/-- The fields of SENSE, clamped to their ranges (12.4, 10.1). -/
def senseFields : List Byte → Option SenseGroup
  | [a1, a0, b1, b0, r1, r0] =>
    some { gA := clampN 1 65535 (u16 a1 a0), gB := clampN 1 65535 (u16 b1 b0), ro := clampN 16 512 (u16 r1 r0) }
  | _ => none

/-- The fields of SENSE as a reply carries them. -/
def SenseGroup.bytes (g : SenseGroup) : List Byte := put16 g.gA ++ put16 g.gB ++ put16 g.ro

/-- A narrowed Ro clamps the offsets; the buckets keep their values (R43). -/
def Sense.narrow (u : Sense) (old new : Nat) : Sense :=
  if new < old then { u with offA := clampOffset new u.offA, offB := clampOffset new u.offB } else u

/-- SENSE stored (R43, R166): refused in CAPTURE, RUN and HOLD (R164, check 2). -/
def Part.storeSense (l : Link) (c : Channel) (g : SenseGroup) (p : Part) : Part :=
  if (p.stateOf c).active then p.refuse l .param .channelActive
  else
    let q := (p.modSense c (fun u => u.narrow (p.ctx.get c).senseG.ro g.ro)).modCtx c
      (fun x => { x with senseG := g, marks := { x.marks with sense := true } })
    q.paramReplied l c 1 g.bytes []

/-! ### TRACK (R50) -/

/-- The fields of TRACK, clamped (12.4, 10.1). -/
def trackFields : List Byte → Option TrackGroup
  | [w, b1, b0, n, q] =>
    some { wt := clampN 0 63 w.toNat, bt := clampN 1 4095 (u16 b1 b0), nx := clampN 1 255 n.toNat, q := q.toNat }
  | _ => none

/-- The fields of TRACK as a reply carries them. -/
def TrackGroup.bytes (g : TrackGroup) : List Byte := put8 g.wt ++ put16 g.bt ++ put8 g.nx ++ put8 g.q

/-- TRACK stored (R50). -/
def Part.storeTrack (l : Link) (c : Channel) (g : TrackGroup) (p : Part) : Part :=
  (p.modCtx c (fun x => { x with trackG := g, marks := { x.marks with track := true } })).paramReplied l c 2 g.bytes []

/-! ### LOOP (R167) -/

/-- The fields of LOOP; they fill their ranges (12.4, R165). -/
def loopFields : List Byte → Option LoopGroup
  | [a1, a0, b1, b0, c1, c0, d1, d0] => some { kpD := u16 a1 a0, kiD := u16 b1 b0, kpQ := u16 c1 c0, kiQ := u16 d1 d0 }
  | _ => none

/-- The fields of LOOP as a reply carries them. -/
def LoopGroup.bytes (g : LoopGroup) : List Byte := put16 g.kpD ++ put16 g.kiD ++ put16 g.kpQ ++ put16 g.kiQ

/-- LOOP stored (R167). -/
def Part.storeLoop (l : Link) (c : Channel) (g : LoopGroup) (p : Part) : Part :=
  (p.modCtx c (fun x => { x with loopG := g, marks := { x.marks with loop := true } })).paramReplied l c 3 g.bytes []

/-! ### LIMITS (R170, R171) -/

/-- The fields of LIMITS, clamped each to its range (12.4, 10.1). -/
def limitsFields : List Byte → Option LimitsGroup
  | [a1, a0, b1, b0, c1, c0, d1, d0, e1, e0] =>
    some { icont := clampN 0 32767 (u16 a1 a0), ipk := clampN 0 32767 (u16 b1 b0), idMax := clampN 0 32767 (u16 c1 c0),
           mlim := clampN 16384 32767 (u16 d1 d0), amax := u16 e1 e0 }
  | _ => none

/-- The fields of LIMITS as a reply carries them. -/
def LimitsGroup.bytes (g : LimitsGroup) : List Byte :=
  put16 g.icont ++ put16 g.ipk ++ put16 g.idMax ++ put16 g.mlim ++ put16 g.amax

/-- LIMITS stored through the clamp order (R170). -/
def Part.storeLimits (l : Link) (c : Channel) (g : LimitsGroup) (p : Part) : Part :=
  let q := p.modCtx c (fun x => { x.reclamp g with marks := { x.marks with limits := true } })
  let x := q.ctx.get c
  q.paramReplied l c 4 x.limitsG.bytes (put16 x.allowance ++ put16 x.icontCeil ++ put16 x.ipkCeil)

/-! ### PROTECT (R169) -/

/-- The fields of PROTECT, clamped: Itrip first, then Ih to 0..Itrip (12.4, R165). -/
def protectFields : List Byte → Option ProtectGroup
  | [i1, i0, h1, h0, d, n] =>
    let itrip := clampN 0 32767 (u16 i1 i0)
    some { itrip := itrip, ih := clampN 0 itrip (u16 h1 h0), dt := clampN 1 15 d.toNat, dl := clampN 1 15 n.toNat }
  | _ => none

/-- The fields of PROTECT as a reply carries them. -/
def ProtectGroup.bytes (g : ProtectGroup) : List Byte := put16 g.itrip ++ put16 g.ih ++ put8 g.dt ++ put8 g.dl

/-- PROTECT stored; the counters keep their values (R53, R169). -/
def Part.storeProtect (l : Link) (c : Channel) (g : ProtectGroup) (p : Part) : Part :=
  (p.modCtx c (fun x => { x with protectG := g, marks := { x.marks with protect := true } })).paramReplied l c 5 g.bytes []

/-! ### HOLD (R168) -/

/-- The fields of HOLD, clamped (12.4, 10.1). -/
def holdFields : List Byte → Option HoldGroup
  | [t, r1, r0, h1, h0] =>
    some { ts := clampN 1 255 t.toNat, rs := clampN 1 32767 (u16 r1 r0), th := clampN 1 65535 (u16 h1 h0) }
  | _ => none

/-- The fields of HOLD as a reply carries them. -/
def HoldGroup.bytes (g : HoldGroup) : List Byte := put8 g.ts ++ put16 g.rs ++ put16 g.th

/-- HOLD stored (R168). -/
def Part.storeHold (l : Link) (c : Channel) (g : HoldGroup) (p : Part) : Part :=
  (p.modCtx c (fun x => { x with holdG := g, marks := { x.marks with hold := true } })).paramReplied l c 6 g.bytes []

/-- PARAM with a group code that need not be one of the six (R163): a frame can carry any. -/
def Part.anyParamReq (p : Part) (l : Link) (payload : List Byte) : Part :=
  match payload with
  | c :: group :: fields =>
    if group = 1 then p.paramReq l c (senseFields fields) (Part.storeSense l)
    else if group = 2 then p.paramReq l c (trackFields fields) (Part.storeTrack l)
    else if group = 3 then p.paramReq l c (loopFields fields) (Part.storeLoop l)
    else if group = 4 then p.paramReq l c (limitsFields fields) (Part.storeLimits l)
    else if group = 5 then p.paramReq l c (protectFields fields) (Part.storeProtect l)
    else if group = 6 then p.paramReq l c (holdFields fields) (Part.storeHold l)
    else p.onMotion l .param (fun _ p => p.refuse l .param .badValue)
  | _ => p.onMotion l .param (fun _ p => p.refuse l .param .badValue)

/-! ### CEILING (R172) -/

/-- The fields of CEILING: channel, Icont ceiling and Ipk ceiling, the ceilings clamped (R172, 12.3). -/
def ceilingFields : List Byte → Option (Channel × Nat × Nat)
  | [c, i1, i0, k1, k0] =>
    (channelOf c).map fun ch =>
      let ipk := clampN 0 32767 (u16 k1 k0)
      (ch, clampN 0 ipk (clampN 0 32767 (u16 i1 i0)), ipk)
  | _ => none

/-- CEILING (R172): both ceilings replaced and the clamp order applied to the stored LIMITS. -/
def Part.ceilingReq (p : Part) (l : Link) (payload : List Byte) : Part :=
  p.onSupervisor l .ceiling fun p =>
    match ceilingFields payload with
    | none => p.refuse l .ceiling .badValue
    | some (c, icont, ipk) =>
      let q := p.modCtx c (fun x => ({ x with icontCeil := icont, ipkCeil := ipk }).reclamp x.limitsG)
      let x := q.ctx.get c
      q.done l .ceiling (put8 c.val ++ put16 icont ++ put16 ipk ++ x.limitsG.bytes ++ put16 x.allowance)

end Sys2Proof.Machine
end

