-- ==== Sys2Proof/Machine/SupervisorRequests.lean ====
section
/-! DEFINITION. The settings of Link S: TIMING and SLOT of the carrier unit (R26 to R31), BUS, BUDGET and CLASS of the bus budget
unit (R90 to R92). -/

namespace Sys2Proof.Machine

/-! ### TIMING (R26 to R29) -/

/-- The values of a TIMING as they will be stored (R26). -/
structure TimingFields where
  period : Nat
  blank : Nat
  divider : Nat
deriving DecidableEq, Repr

/-- The fields of TIMING: the period floored to a multiple of 12 and then clamped, the others clamped (R26, 12.3). -/
def timingFields : List Byte → Option TimingFields
  | [p1, p0, w1, w0, n] =>
    some { period := clampN Config.periodMin Config.periodMax (u16 p1 p0 / 12 * 12), blank := clampN 0 Config.blankMax (u16 w1 w0),
           divider := clampN 1 Config.dividerMax n.toNat }
  | _ => none

/-- The period that will be in force from the next frame mark (R26). -/
def Carrier.comingPeriod (k : Carrier) : Nat := k.pendingP.getD k.period

/-- TIMING (R26 to R29): a change of P waits for the next frame mark, W and N act at once, the SYNC count is 0. -/
def Part.timingReq (p : Part) (l : Link) (payload : List Byte) : Part :=
  p.onSupervisor l .timing fun p =>
    match timingFields payload with
    | none => p.refuse l .timing .badValue
    | some t =>
      let change := t.period ≠ p.carrier.comingPeriod
      if change && p.anyActive then p.refuse l .timing .notAllOff
      else
        let k := p.carrier
        let q := { p with carrier := { k with pendingP := if change then some t.period else k.pendingP, blank := t.blank,
                                              divider := t.divider, syncCount := 0 } }
        q.done l .timing (put16 q.carrier.comingPeriod ++ put16 t.blank ++ put8 t.divider)

/-! ### SLOT (R31) -/

/-- The fields of SLOT: a channel, and a carrier slot clamped to 5 (R31, 12.3). -/
def slotFields : List Byte → Option (Channel × CarrierSlot)
  | [c, k] => (channelOf c).map (fun ch => (ch, ⟨min k.toNat 5, by omega⟩))
  | _ => none

/-- The slot table as it will stand from the next frame mark (R31). -/
def Carrier.comingTable (k : Carrier) : Six Channel := k.pendingTable.getD k.table

/-- Channel `c` in slot `k`, and the channel that held `k` in the former slot of `c` (R31). -/
def swapInto (t : Six Channel) (c : Channel) (k : CarrierSlot) : Six Channel :=
  match channels.find? (fun j => t.get j = c) with
  | some j => (t.set j (t.get k)).set k c
  | none => t

/-- SLOT (R31). -/
def Part.slotReq (p : Part) (l : Link) (payload : List Byte) : Part :=
  p.onSupervisor l .slot fun p =>
    match slotFields payload with
    | none => p.refuse l .slot .badValue
    | some (c, k) =>
      let t := p.carrier.comingTable
      if (p.stateOf c).active || (p.stateOf (t.get k)).active then p.refuse l .slot .channelActive
      else
        let t' := swapInto t c k
        ({ p with carrier := { p.carrier with pendingTable := some t' } }).done l .slot (t'.toList.flatMap (fun (c : Channel) => put8 c.val))

/-! ### BUS, BUDGET, CLASS (R90 to R92) -/

/-- The values of a BUS as they will be stored. -/
structure BusFields where
  gv : Nat
  ov : Nat
  uv : Nat
  uvh : Nat
  nuv : Nat
deriving DecidableEq, Repr

/-- The fields of BUS, clamped (R90, 12.3). -/
def busFields : List Byte → Option BusFields
  | [g1, g0, o1, o0, u1, u0, h1, h0, n] =>
    some { gv := u16 g1 g0, ov := clampN 0 Config.vdcMax (u16 o1 o0), uv := clampN 0 Config.vdcMax (u16 u1 u0),
           uvh := clampN 0 Config.uvhMax (u16 h1 h0), nuv := clampN 1 15 n.toNat }
  | _ => none

/-- BUS (R90): the stored Vdc and the UV debounce count keep their values. -/
def Part.busReq (p : Part) (l : Link) (payload : List Byte) : Part :=
  p.onSupervisor l .bus fun p =>
    match busFields payload with
    | none => p.refuse l .bus .badValue
    | some f =>
      ({ p with bus := { p.bus with gv := f.gv, ov := f.ov, uv := f.uv, uvh := f.uvh, nuv := f.nuv } }).done l .bus
        (put16 f.gv ++ put16 f.ov ++ put16 f.uv ++ put16 f.uvh ++ put8 f.nuv)

/-- The values of a BUDGET as they will be stored. -/
structure BudgetFields where
  feed : Nat
  regen : Nat
  cap : Nat
  cool : Nat
  hmax : Nat
deriving DecidableEq, Repr

/-- The fields of BUDGET, clamped (R91, 12.3). -/
def budgetFields : List Byte → Option BudgetFields
  | [f3, f2, f1, f0, r3, r2, r1, r0, c3, c2, c1, c0, k3, k2, k1, k0, h3, h2, h1, h0] =>
    some { feed := clampN 0 Config.supplyMax (u32 f3 f2 f1 f0), regen := clampN 0 Config.supplyMax (u32 r3 r2 r1 r0),
           cap := clampN 0 Config.chopperMax (u32 c3 c2 c1 c0), cool := clampN 0 Config.chopperMax (u32 k3 k2 k1 k0),
           hmax := clampN 0 Config.heatLimitMax (u32 h3 h2 h1 h0) }
  | _ => none

/-- BUDGET (R91): the limits are replaced and the budget-set mark is set; the heat and the blocked flag stay. -/
def Part.budgetReq (p : Part) (l : Link) (payload : List Byte) : Part :=
  p.onSupervisor l .budget fun p =>
    match budgetFields payload with
    | none => p.refuse l .budget .badValue
    | some f =>
      ({ p with bus := { p.bus with feed := f.feed, regen := f.regen, cap := f.cap, cool := f.cool, hmax := f.hmax,
                                    budgetSet := true } }).done l .budget
        (put32 f.feed ++ put32 f.regen ++ put32 f.cap ++ put32 f.cool ++ put32 f.hmax)

/-- The class and reserve that one entry of a CLASS stores (R92). -/
def Bus.storeClass (b : Bus) (e : ClassEntry) : Bus :=
  { b with cls := b.cls.set e.ch (clampN 0 3 e.cls), reserve := b.reserve.set e.ch (clampN 0 65535 e.reserve) }

/-- CLASS (R92): refused when a channel is named twice. -/
def Part.classReq (p : Part) (l : Link) (payload : List Byte) : Part :=
  p.onSupervisor l .classes fun p =>
    match classFields payload with
    | none => p.refuse l .classes .badValue
    | some es =>
      if !(es.map (fun e => e.ch)).Nodup then p.refuse l .classes .badValue
      else
        let b := es.foldl Bus.storeClass p.bus
        ({ p with bus := b }).done l .classes (channels.flatMap (fun c => put8 (b.cls.get c) ++ put16 (b.reserve.get c)))

end Sys2Proof.Machine
end

