-- ==== Sys2Proof/Machine/TorqueUnit.lean ====
section
/-! DEFINITION. The torque input logic (06): the edges of TEN (R110, R111) and of the BFLT lines (R54, R55), and the requests
WITHDRAW, RESTORE and EDGE_CLEAR (R112 to R117). -/

namespace Sys2Proof.Machine

/-! ### The lines -/

/-- The torque input logic changed by `f`. -/
def Part.modTorque (p : Part) (f : Torque → Torque) : Part := { p with torque := f p.torque }

/-- TORQUE_DROP to the three queues (R110). -/
def Part.sendTorqueDrop (p : Part) : Part :=
  ((p.send .a .torqueDrop none .none).send .b .torqueDrop none .none).send .s .torqueDrop none .none

/-- A channel not in SAFE_OFF enters it with its event (R17). -/
def Part.safeOff (p : Part) (c : Channel) : Part :=
  if p.stateOf c = .safeOff then p else (p.intoSafeOff c).sendChannel .stateEntered c (.entered .safeOff)

/-- A falling edge of TEN (R110). A line that is low already does not fall (log 10). -/
def Part.tenFall (p : Part) : Part :=
  if p.held || !p.torque.ten then p
  else ((p.modTorque (fun t => { t with ten := false, drop := true })).sendTorqueDrop).forChannels channels (fun c q => q.safeOff c)

/-- A rising edge of TEN (R111): the line is recorded as high, and nothing else changes. -/
def Part.tenRise (p : Part) : Part := if p.held then p else p.modTorque (fun t => { t with ten := true })

/-- The level of a BFLT line. -/
def Part.setBflt (p : Part) (c : Channel) (active : Bool) : Part :=
  p.modTorque (fun t => { t with bflt := t.bflt.set c active })

/-- BFLT going active (R54): BRIDGE is raised at once, in every state. A line that is active already does not go active
(log 10). -/
def Part.bfltActive (p : Part) (c : Channel) : Part :=
  if p.held || p.torque.bflt.get c then p else (p.setBflt c true).raise .bridge c

/-- BFLT going inactive (R54, R55): nothing is raised. -/
def Part.bfltInactive (p : Part) (c : Channel) : Part := if p.held then p else p.setBflt c false

/-! ### Leaving SAFE_OFF (R117) -/

/-- A channel in SAFE_OFF is judged for exit (R117): with TEN high, the drop flag clear and its withdrawn flag clear it leaves
for FAULT when its cause set holds a cause, else for OFF. -/
def Part.judgeExit (p : Part) (c : Channel) : Part :=
  if p.stateOf c = .safeOff && p.torque.ten && !p.torque.drop && !p.torque.withdrawn.get c then
    p.enter c (if (p.causesOf c).isEmpty then .off else .fault)
  else p

/-! ### The requests -/

/-- The payload of a DONE reply to WITHDRAW, RESTORE and EDGE_CLEAR (6.3, 12.3). -/
def Part.torqueBytes (p : Part) : List Byte :=
  maskByte (fun c => p.torque.withdrawn.get c) ++ put8 (bit p.torque.drop) ++ maskByte (fun c => p.stateOf c = .safeOff)

/-- The withdrawn flags of the named channels set or cleared. -/
def Part.setWithdrawn (p : Part) (cs : List Channel) (v : Bool) : Part :=
  p.forChannels cs (fun c q => q.modTorque (fun t => { t with withdrawn := t.withdrawn.set c v }))

/-- WITHDRAW (R112): the flags, then the named channels into SAFE_OFF, then the partner rule for those that entered it. The manual
does not say in which order several partners are raised; DESIGN CHOICE: in the order of the channels that entered SAFE_OFF,
ascending (log 19). -/
def Part.withdrawChannels (p : Part) (cs : List Channel) : Part :=
  let entered := cs.filter (fun c => p.stateOf c ≠ .safeOff)
  ((p.setWithdrawn cs true).forChannels cs (fun c q => q.safeOff c)).forChannels entered (fun c q => q.partnerRule c)

/-- WITHDRAW (R112). -/
def Part.withdrawReq (p : Part) (l : Link) (payload : List Byte) : Part :=
  p.onSupervisor l .withdraw fun p =>
    match onlyMask payload with
    | none => p.refuse l .withdraw .badValue
    | some cs => (p.withdrawChannels cs).done l .withdraw (p.withdrawChannels cs).torqueBytes

/-- RESTORE (R113): the flags are cleared, and the named channels in SAFE_OFF are judged for exit. -/
def Part.restoreChannels (p : Part) (cs : List Channel) : Part :=
  (p.setWithdrawn cs false).forChannels cs (fun c q => q.judgeExit c)

/-- RESTORE (R113). -/
def Part.restoreReq (p : Part) (l : Link) (payload : List Byte) : Part :=
  p.onSupervisor l .restore fun p =>
    match onlyMask payload with
    | none => p.refuse l .restore .badValue
    | some cs => (p.restoreChannels cs).done l .restore (p.restoreChannels cs).torqueBytes

/-- The drop flag cleared and every channel in SAFE_OFF judged for exit (R114). -/
def Part.clearEdge (p : Part) : Part :=
  (p.modTorque (fun t => { t with drop := false })).forChannels channels (fun c q => q.judgeExit c)

/-- EDGE_CLEAR (R114). -/
def Part.edgeClearReq (p : Part) (l : Link) (payload : List Byte) : Part :=
  p.onSupervisor l .edgeClear fun p =>
    if !payload.isEmpty then p.refuse l .edgeClear .badValue
    else if !p.torque.ten then p.refuse l .edgeClear .lineLow
    else p.clearEdge.done l .edgeClear p.clearEdge.torqueBytes

end Sys2Proof.Machine
end

