-- ==== Sys2Proof/Machine/Requests.lean ====
section
/-! DEFINITION. A request by its kind, and the end of a frame of any bytes (R124, R125). -/

namespace Sys2Proof.Machine

/-- SET with the whole payload: the flag byte, whose bit 0 is the END mark, then the records (R148, R191). -/
def Part.anySetReq (p : Part) (l : Link) (payload : List Byte) : Part :=
  match payload with
  | flag :: bytes => p.setReq l (flag.toNat % 2 = 1) bytes
  | [] => p.onMotion l .set (fun _ p => p.refuse l .set .badValue)

/-- The judgement of a request of kind `k` with its payload (R125). -/
def Part.judgeKind (p : Part) (l : Link) (k : Kind) (payload : List Byte) : Part :=
  match k with
  | .nop => p.nopReq l
  | .linkReset => p.linkResetReq l payload
  | .status => p.statusReq l payload
  | .events => p.eventsReq l payload
  | .read => p.readReq l payload
  | .ack => p.ackReq l payload
  | .claim => p.claimReq l payload
  | .release => p.releaseReq l payload
  | .map => p.mapReq l payload
  | .unmap => p.unmapReq l payload
  | .param => p.anyParamReq l payload
  | .enable => p.enableReq l payload
  | .disable => p.disableReq l payload
  | .set => p.anySetReq l payload
  | .discard => p.discardReq l payload
  | .budget => p.budgetReq l payload
  | .bus => p.busReq l payload
  | .classes => p.classReq l payload
  | .ceiling => p.ceilingReq l payload
  | .timing => p.timingReq l payload
  | .slot => p.slotReq l payload
  | .withdraw => p.withdrawReq l payload
  | .restore => p.restoreReq l payload
  | .edgeClear => p.edgeClearReq l payload
  | .revoke => p.revokeReq l payload

/-- The end of a frame of any bytes (R124): rejected with the subcode of the first check that fails; a frame that passes all
of them carries the request of its kind and payload (log 9). -/
def Part.frameEnd (p : Part) (l : Link) (bytes : List Byte) (lastWhole : Bool) : Part :=
  p.takeFrame l bytes.length fun p =>
    match checkFrame bytes lastWhole with
    | .error c => p.rejectFrame l c
    | .ok (k, payload) => p.judgeKind l k payload

end Sys2Proof.Machine
end

