-- ==== Sys2Proof/Machine/ResetUnit.lean ====
section
/-! DEFINITION. The full reset (R2, R23, R109, R120): what RESET held low does, and what its end does. -/

namespace Sys2Proof.Machine

/-- The level of TEN taken as the line state, and the start state of the channels: SAFE_OFF with the drop flag set when TEN is
low, and no event (R2, R109). -/
def Part.startStates (p : Part) (tenHigh : Bool) : Part :=
  if tenHigh then p.modTorque (fun t => { t with ten := true })
  else
    (p.modTorque (fun t => { t with ten := false, drop := true })).forChannels channels
      (fun c q => q.modCtx c (fun x => { x with state := .safeOff }))

/-- A link interface at the end of a reset: the bytes of a frame found already begun are ignored (R120). What data out does until
select rises is not stated; DESIGN CHOICE: it stays in high impedance (log 21). -/
def Part.startLink (p : Part) (l : Link) (selectLow : Bool) : Part :=
  if selectLow then p.modLink l (fun i => { i with rx := .ignoring }) else p

/-- The end of a full reset (R2, R54, R109, R120): the carrier starts, the start states are set, and then a BFLT line found
active is taken as going active. The order of several active lines is not stated; DESIGN CHOICE: ascending channels (log 22).
Without a reset held there is no end of one. -/
def Part.resetEnd (p : Part) (tenHigh : Bool) (bflt : Six Bool) (selectLow : Three Bool) : Part :=
  if p.held then
    let q := ({ p with held := false }).startStates tenHigh
    let q := ((q.startLink .a (selectLow.get .a)).startLink .b (selectLow.get .b)).startLink .s (selectLow.get .s)
    q.forChannels (channels.filter (fun c => bflt.get c)) (fun c r => r.bfltActive c)
  else p

end Sys2Proof.Machine
end

