-- ==== Sys2Proof/Machine/EventCommands.lean ====
section
/-! DEFINITION. The meanings of the commands that are no requests: the reset, the events of the carrier, of the bus unit, of the sense
unit and of the loop engine, the edges of the lines, and the ends of a frame that carry no request. -/

namespace Sys2Proof.Machine

/-- What every command answers: a next state. -/
abbrev Answer := Host.Outcome State Fault Refusal

/-! ### Reset -/

/-- FULL_RESET (R2, R23, R40, R86, R109, R120, R134, R147, R162, R176): every block in its reset values and RESET held; nothing
is due. The queue of commands is the sender's and stays. -/
def execFullReset (s : State) : Answer := .next { s with part := .afterReset true, due := [] }

/-- RESET_END (R2, R54, R109, R120). -/
def execResetEnd (tenHigh : Bool) (bfltActive : Six Bool) (selectLow : Three Bool) (s : State) : Answer :=
  .next (s.run (fun p => p.resetEnd tenHigh bfltActive selectLow))

/-! ### Carrier unit -/

/-- FRAME_MARK (R24, R29, R87 to R106). -/
def execFrameMark (rawBus : Raw) (before : Nat) (s : State) : Answer :=
  .next (s.actAfterAll (fun p => p.frameMarkOp rawBus before))

/-- VALLEY (R25, R36, R37, R41, R10). The valley of carrier slot 0 falls at the frame mark and can come before the bus unit's
operation; the valleys of the other slots come after it (R84). -/
def execValley (ch : Channel) (rawA rawB : Raw) (order : ValleyOrder) (s : State) : Answer :=
  .next (if slotIn s.part.carrier.table ch = 0 then s.act (fun p => p.valleyOp ch rawA rawB order)
    else s.actAfterAll (fun p => p.valleyOp ch rawA rawB order))

/-- LEG_EDGE (R33). -/
def execLegEdge (ch : Channel) (leg : Leg) (s : State) : Answer := .next (s.run (fun p => p.legEdge ch leg))

/-! ### Bus budget unit -/

/-- BUS_UV (R89), due inside a frame mark. -/
def execBusUv (s : State) : Answer := .next (s.takeRow .busUv)

/-- CHOPPER_BLOCKED (R106), due inside a frame mark. -/
def execChopperBlocked (s : State) : Answer := .next (s.takeRow .chopperBlocked)

/-- CHOPPER_RESTORED (R106), due inside a frame mark. -/
def execChopperRestored (s : State) : Answer := .next (s.takeRow .chopperRestored)

/-- BRK_ON_TIME_END (R104). -/
def execBrkOnTimeEnd (s : State) : Answer := .next (s.run Part.brkOnTimeEnd)

/-! ### Sense unit -/

/-- OVERCURRENT (R52, R53), due inside a valley. -/
def execOvercurrent (ch : Channel) (s : State) : Answer := .next (s.takeRow (.overcurrent ch))

/-- SAMPLE_LOSS (R51), due inside a valley. -/
def execSampleLoss (ch : Channel) (s : State) : Answer := .next (s.takeRow (.sampleLoss ch))

/-- CAPTURE_END (R7, R8), due inside a valley. -/
def execCaptureEnd (ch : Channel) (s : State) : Answer := .next (s.takeRow (.captureEnd ch))

/-- OFFSET_STEP of one phase (R47), due inside a valley. -/
def execOffsetStep (ch : Channel) (phase : Phase) (s : State) : Answer := .next (s.takeRow (.offsetStep ch phase))

/-- RECAPTURE (R49), due inside a valley. -/
def execRecapture (ch : Channel) (s : State) : Answer := .next (s.takeRow (.recapture ch))

/-! ### Current loop engine -/

/-- COMPUTATION_COMPLETE (R59). -/
def execComputationComplete (ch : Channel) (s : State) : Answer := .next (s.act (fun p => p.complete ch))

/-- PEAK_EXHAUSTED (R66), due inside a completion. -/
def execPeakExhausted (ch : Channel) (s : State) : Answer := .next (s.takeRow (.peakExhausted ch))

/-- HOLD_ENTRY (R11), due inside a completion. -/
def execHoldEntry (ch : Channel) (s : State) : Answer := .next (s.takeRow (.holdEntry ch))

/-- SETPOINT_TIMEOUT (R13), due inside a completion. -/
def execSetpointTimeout (ch : Channel) (s : State) : Answer := .next (s.takeRow (.setpointTimeout ch))

/-! ### Lines -/

/-- BFLT_ACTIVE (R54). -/
def execBfltActive (ch : Channel) (s : State) : Answer := .next (s.run (fun p => p.bfltActive ch))

/-- BFLT_INACTIVE (R55). -/
def execBfltInactive (ch : Channel) (s : State) : Answer := .next (s.run (fun p => p.bfltInactive ch))

/-- TEN_FALL (R110). -/
def execTenFall (s : State) : Answer := .next (s.run Part.tenFall)

/-- TEN_RISE (R111). -/
def execTenRise (s : State) : Answer := .next (s.run Part.tenRise)

/-! ### Frames -/

/-- FRAME_START (R122). -/
def execFrameStart (link : Link) (s : State) : Answer := .next (s.run (fun p => p.frameStart link))

/-- FRAME_ERROR (R124): the end of a frame of these bytes. -/
def execFrameError (link : Link) (bytes : List Byte) (lastWhole : Bool) (s : State) : Answer :=
  .next (s.run (fun p => p.frameEnd link bytes lastWhole))

/-- IGNORED_FRAME_END (R120). -/
def execIgnoredFrameEnd (link : Link) (s : State) : Answer := .next (s.run (fun p => p.ignoredFrameEnd link))

end Sys2Proof.Machine
end

