-- ==== Sys2Proof/Machine/RequestCommands.lean ====
section
/-! DEFINITION. The meanings of the requests: each is taken at the end of the frame that carries it (R121, R125). -/

namespace Sys2Proof.Machine

/-- NOP (R129). -/
def execNop (link : Link) (payload : List Byte) (s : State) : Answer :=
  .next (s.run (fun p => p.request link payload (fun p => p.nopReq link)))

/-- LINK_RESET (R132). -/
def execLinkReset (link : Link) (payload : List Byte) (s : State) : Answer :=
  .next (s.run (fun p => p.request link payload (fun p => p.linkResetReq link payload)))

/-- STATUS (R178 to R180). -/
def execStatus (link : Link) (payload : List Byte) (s : State) : Answer :=
  .next (s.run (fun p => p.request link payload (fun p => p.statusReq link payload)))

/-- EVENTS (R188). -/
def execEvents (link : Link) (payload : List Byte) (s : State) : Answer :=
  .next (s.run (fun p => p.request link payload (fun p => p.eventsReq link payload)))

/-- READ (R185). -/
def execRead (link : Link) (payload : List Byte) (s : State) : Answer :=
  .next (s.run (fun p => p.request link payload (fun p => p.readReq link payload)))

/-- ACK (R182, R183). -/
def execAck (link : Link) (payload : List Byte) (s : State) : Answer :=
  .next (s.run (fun p => p.request link payload (fun p => p.ackReq link payload)))

/-- CLAIM (R135). -/
def execClaim (link : Link) (payload : List Byte) (s : State) : Answer :=
  .next (s.run (fun p => p.request link payload (fun p => p.claimReq link payload)))

/-- RELEASE (R137). -/
def execRelease (link : Link) (payload : List Byte) (s : State) : Answer :=
  .next (s.run (fun p => p.request link payload (fun p => p.releaseReq link payload)))

/-- MAP (R139, R140). -/
def execMap (link : Link) (payload : List Byte) (s : State) : Answer :=
  .next (s.run (fun p => p.request link payload (fun p => p.mapReq link payload)))

/-- UNMAP (R141). -/
def execUnmap (link : Link) (payload : List Byte) (s : State) : Answer :=
  .next (s.run (fun p => p.request link payload (fun p => p.unmapReq link payload)))

/-- REVOKE (R142, R143). -/
def execRevoke (link : Link) (payload : List Byte) (s : State) : Answer :=
  .next (s.run (fun p => p.request link payload (fun p => p.revokeReq link payload)))

/-- CEILING (R172, R173). -/
def execCeiling (link : Link) (payload : List Byte) (s : State) : Answer :=
  .next (s.run (fun p => p.request link payload (fun p => p.ceilingReq link payload)))

/-- ENABLE (R4, R5). -/
def execEnable (link : Link) (payload : List Byte) (s : State) : Answer :=
  .next (s.run (fun p => p.request link payload (fun p => p.enableReq link payload)))

/-- DISABLE (R16). -/
def execDisable (link : Link) (payload : List Byte) (s : State) : Answer :=
  .next (s.run (fun p => p.request link payload (fun p => p.disableReq link payload)))

/-- DISCARD (R160). -/
def execDiscard (link : Link) (payload : List Byte) (s : State) : Answer :=
  .next (s.run (fun p => p.request link payload (fun p => p.discardReq link payload)))

/-- TIMING (R26 to R29). -/
def execTiming (link : Link) (payload : List Byte) (s : State) : Answer :=
  .next (s.run (fun p => p.request link payload (fun p => p.timingReq link payload)))

/-- SLOT (R31). -/
def execSlot (link : Link) (payload : List Byte) (s : State) : Answer :=
  .next (s.run (fun p => p.request link payload (fun p => p.slotReq link payload)))

/-- BUS (R90). -/
def execBus (link : Link) (payload : List Byte) (s : State) : Answer :=
  .next (s.run (fun p => p.request link payload (fun p => p.busReq link payload)))

/-- BUDGET (R91). -/
def execBudget (link : Link) (payload : List Byte) (s : State) : Answer :=
  .next (s.run (fun p => p.request link payload (fun p => p.budgetReq link payload)))

/-- CLASS (R92). -/
def execClasses (link : Link) (payload : List Byte) (s : State) : Answer :=
  .next (s.run (fun p => p.request link payload (fun p => p.classReq link payload)))

/-- WITHDRAW (R112). -/
def execWithdraw (link : Link) (payload : List Byte) (s : State) : Answer :=
  .next (s.run (fun p => p.request link payload (fun p => p.withdrawReq link payload)))

/-- RESTORE (R113). -/
def execRestore (link : Link) (payload : List Byte) (s : State) : Answer :=
  .next (s.run (fun p => p.request link payload (fun p => p.restoreReq link payload)))

/-- EDGE_CLEAR (R114). -/
def execEdgeClear (link : Link) (payload : List Byte) (s : State) : Answer :=
  .next (s.run (fun p => p.request link payload (fun p => p.edgeClearReq link payload)))

/-- PARAM of group SENSE (R43, R166): the payload is the channel byte, the group code 1 and the fields (12.3, 12.4). -/
def execParamSense (link : Link) (chByte : Byte) (fields : List Byte) (s : State) : Answer :=
  .next (s.run (fun p => p.request link (chByte :: 1 :: fields) (fun p =>
    p.paramReq link chByte (senseFields fields) (Part.storeSense link))))

/-- PARAM of group TRACK (R50): the payload is the channel byte, the group code 2 and the fields (12.3, 12.4). -/
def execParamTrack (link : Link) (chByte : Byte) (fields : List Byte) (s : State) : Answer :=
  .next (s.run (fun p => p.request link (chByte :: 2 :: fields) (fun p =>
    p.paramReq link chByte (trackFields fields) (Part.storeTrack link))))

/-- PARAM of group LOOP (R167): the payload is the channel byte, the group code 3 and the fields (12.3, 12.4). -/
def execParamLoop (link : Link) (chByte : Byte) (fields : List Byte) (s : State) : Answer :=
  .next (s.run (fun p => p.request link (chByte :: 3 :: fields) (fun p =>
    p.paramReq link chByte (loopFields fields) (Part.storeLoop link))))

/-- PARAM of group LIMITS (R170, R171): the payload is the channel byte, the group code 4 and the fields (12.3, 12.4). -/
def execParamLimits (link : Link) (chByte : Byte) (fields : List Byte) (s : State) : Answer :=
  .next (s.run (fun p => p.request link (chByte :: 4 :: fields) (fun p =>
    p.paramReq link chByte (limitsFields fields) (Part.storeLimits link))))

/-- PARAM of group PROTECT (R169): the payload is the channel byte, the group code 5 and the fields (12.3, 12.4). -/
def execParamProtect (link : Link) (chByte : Byte) (fields : List Byte) (s : State) : Answer :=
  .next (s.run (fun p => p.request link (chByte :: 5 :: fields) (fun p =>
    p.paramReq link chByte (protectFields fields) (Part.storeProtect link))))

/-- PARAM of group HOLD (R168): the payload is the channel byte, the group code 6 and the fields (12.3, 12.4). -/
def execParamHold (link : Link) (chByte : Byte) (fields : List Byte) (s : State) : Answer :=
  .next (s.run (fun p => p.request link (chByte :: 6 :: fields) (fun p =>
    p.paramReq link chByte (holdFields fields) (Part.storeHold link))))

/-- The flag byte of a SET payload: bit 0 is the END mark, bits 1 to 7 are ignored (R191). -/
def setFlagByte (ignored : BitVec 7) (endMark : BitVec 1) : Byte := ignored ++ endMark

/-- SET with END clear (R148 to R151): the payload is the flag byte and the records. -/
def execSet (link : Link) (ignored : BitVec 7) (records : List Byte) (s : State) : Answer :=
  .next (s.run (fun p => p.request link (setFlagByte ignored 0 :: records) (fun p => p.setReq link false records)))

/-- SET with END set (R148 to R156): the payload is the flag byte and the records. -/
def execSetEnd (link : Link) (ignored : BitVec 7) (records : List Byte) (s : State) : Answer :=
  .next (s.run (fun p => p.request link (setFlagByte ignored 1 :: records) (fun p => p.setReq link true records)))

end Sys2Proof.Machine
end

