-- ==== Sys2Proof/Machine/Dispatch.lean ====
section
/-! DEFINITION. One arm for each command of spec/opcode_table.json, in the table's order. -/

namespace Sys2Proof.Machine

def exec (i : Instr) (s : State) : Host.Outcome State Fault Refusal :=
  match i with
  | .fullReset => Sys2Proof.Machine.execFullReset s
  | .resetEnd tenHigh bfltActive selectLow => Sys2Proof.Machine.execResetEnd tenHigh bfltActive selectLow s
  | .frameMark rawBus before => Sys2Proof.Machine.execFrameMark rawBus before s
  | .busUv => Sys2Proof.Machine.execBusUv s
  | .chopperBlocked => Sys2Proof.Machine.execChopperBlocked s
  | .chopperRestored => Sys2Proof.Machine.execChopperRestored s
  | .brkOnTimeEnd => Sys2Proof.Machine.execBrkOnTimeEnd s
  | .valley ch rawA rawB order => Sys2Proof.Machine.execValley ch rawA rawB order s
  | .overcurrent ch => Sys2Proof.Machine.execOvercurrent ch s
  | .sampleLoss ch => Sys2Proof.Machine.execSampleLoss ch s
  | .captureEnd ch => Sys2Proof.Machine.execCaptureEnd ch s
  | .offsetStep ch phase => Sys2Proof.Machine.execOffsetStep ch phase s
  | .recapture ch => Sys2Proof.Machine.execRecapture ch s
  | .computationComplete ch => Sys2Proof.Machine.execComputationComplete ch s
  | .peakExhausted ch => Sys2Proof.Machine.execPeakExhausted ch s
  | .holdEntry ch => Sys2Proof.Machine.execHoldEntry ch s
  | .setpointTimeout ch => Sys2Proof.Machine.execSetpointTimeout ch s
  | .legEdge ch leg => Sys2Proof.Machine.execLegEdge ch leg s
  | .bfltActive ch => Sys2Proof.Machine.execBfltActive ch s
  | .bfltInactive ch => Sys2Proof.Machine.execBfltInactive ch s
  | .tenFall => Sys2Proof.Machine.execTenFall s
  | .tenRise => Sys2Proof.Machine.execTenRise s
  | .frameStart link => Sys2Proof.Machine.execFrameStart link s
  | .frameError link bytes lastWhole => Sys2Proof.Machine.execFrameError link bytes lastWhole s
  | .nop link payload => Sys2Proof.Machine.execNop link payload s
  | .linkReset link payload => Sys2Proof.Machine.execLinkReset link payload s
  | .status link payload => Sys2Proof.Machine.execStatus link payload s
  | .events link payload => Sys2Proof.Machine.execEvents link payload s
  | .read link payload => Sys2Proof.Machine.execRead link payload s
  | .ack link payload => Sys2Proof.Machine.execAck link payload s
  | .claim link payload => Sys2Proof.Machine.execClaim link payload s
  | .release link payload => Sys2Proof.Machine.execRelease link payload s
  | .map link payload => Sys2Proof.Machine.execMap link payload s
  | .unmap link payload => Sys2Proof.Machine.execUnmap link payload s
  | .revoke link payload => Sys2Proof.Machine.execRevoke link payload s
  | .paramSense link chByte fields => Sys2Proof.Machine.execParamSense link chByte fields s
  | .paramTrack link chByte fields => Sys2Proof.Machine.execParamTrack link chByte fields s
  | .paramLoop link chByte fields => Sys2Proof.Machine.execParamLoop link chByte fields s
  | .paramLimits link chByte fields => Sys2Proof.Machine.execParamLimits link chByte fields s
  | .paramProtect link chByte fields => Sys2Proof.Machine.execParamProtect link chByte fields s
  | .paramHold link chByte fields => Sys2Proof.Machine.execParamHold link chByte fields s
  | .ceiling link payload => Sys2Proof.Machine.execCeiling link payload s
  | .enable link payload => Sys2Proof.Machine.execEnable link payload s
  | .disable link payload => Sys2Proof.Machine.execDisable link payload s
  | .set link ignored records => Sys2Proof.Machine.execSet link ignored records s
  | .setEnd link ignored records => Sys2Proof.Machine.execSetEnd link ignored records s
  | .discard link payload => Sys2Proof.Machine.execDiscard link payload s
  | .timing link payload => Sys2Proof.Machine.execTiming link payload s
  | .slot link payload => Sys2Proof.Machine.execSlot link payload s
  | .bus link payload => Sys2Proof.Machine.execBus link payload s
  | .budget link payload => Sys2Proof.Machine.execBudget link payload s
  | .classes link payload => Sys2Proof.Machine.execClasses link payload s
  | .withdraw link payload => Sys2Proof.Machine.execWithdraw link payload s
  | .restore link payload => Sys2Proof.Machine.execRestore link payload s
  | .edgeClear link payload => Sys2Proof.Machine.execEdgeClear link payload s
  | .ignoredFrameEnd link => Sys2Proof.Machine.execIgnoredFrameEnd link s

end Sys2Proof.Machine
end

