-- ==== Sys2Proof/Machine/Step.lean ====
section
/-! DEFINITION. One step of the machine: the command at the front of the queue is taken. -/

namespace Sys2Proof.Machine

/-- One step (log 2): the command at the front of the queue is executed on the state with the rest of the queue. On an empty
queue the steps that are due are taken, and the part idles when none is. -/
def step (s : State) : Host.Outcome State Fault Refusal :=
  match s.pending with
  | [] => .next { s with part := s.part.settle s.due, due := [] }
  | i :: rest => exec i { s with pending := rest }

/-- `s` with the command that the word spells at the front of its queue (log 14): the table's bits spell none, and then `s`
itself. -/
def State.withFetchWord (s : State) (nbits w : Nat) : State :=
  match decodeTableWord nbits w with
  | some i => { s with pending := i :: s.pending }
  | none => s

end Sys2Proof.Machine
end

