-- ==== Sys2Proof/Safety.lean ====
section
/-! DEFINITION. What the statements about the part are made of: when a link takes a request, what a reply and the end of a frame
leave, and the properties that the part keeps in every step. -/

namespace Sys2Proof.Machine

/-! ### Words of the statements -/

/-- No step is due, the part is not held in reset, and link `l` takes the request of the frame that ends now (R120). The frame's
start may have been given by FRAME_START or not: a request command stands for a whole frame either way (log 8). -/
def State.takes (s : State) (l : Link) : Prop :=
  s.due = [] ∧ s.part.held = false ∧ (s.part.links.get l).rx ≠ .ignoring

/-- The request that a command is: its link, its kind and its payload (12.3). -/
def requestOf : Instr → Option (Link × Kind × List Byte)
  | .nop l p => some (l, .nop, p)
  | .linkReset l p => some (l, .linkReset, p)
  | .status l p => some (l, .status, p)
  | .events l p => some (l, .events, p)
  | .read l p => some (l, .read, p)
  | .ack l p => some (l, .ack, p)
  | .claim l p => some (l, .claim, p)
  | .release l p => some (l, .release, p)
  | .map l p => some (l, .map, p)
  | .unmap l p => some (l, .unmap, p)
  | .revoke l p => some (l, .revoke, p)
  | .paramSense l c f => some (l, .param, c :: 1 :: f)
  | .paramTrack l c f => some (l, .param, c :: 2 :: f)
  | .paramLoop l c f => some (l, .param, c :: 3 :: f)
  | .paramLimits l c f => some (l, .param, c :: 4 :: f)
  | .paramProtect l c f => some (l, .param, c :: 5 :: f)
  | .paramHold l c f => some (l, .param, c :: 6 :: f)
  | .ceiling l p => some (l, .ceiling, p)
  | .enable l p => some (l, .enable, p)
  | .disable l p => some (l, .disable, p)
  | .set l i r => some (l, .set, (i ++ (0 : BitVec 1)) :: r)
  | .setEnd l i r => some (l, .set, (i ++ (1 : BitVec 1)) :: r)
  | .discard l p => some (l, .discard, p)
  | .timing l p => some (l, .timing, p)
  | .slot l p => some (l, .slot, p)
  | .bus l p => some (l, .bus, p)
  | .budget l p => some (l, .budget, p)
  | .classes l p => some (l, .classes, p)
  | .withdraw l p => some (l, .withdraw, p)
  | .restore l p => some (l, .restore, p)
  | .edgeClear l p => some (l, .edgeClear, p)
  | _ => none

/-- How many bytes the frame that a command ends has (R121). -/
def clocked (c : Instr) : Nat :=
  match c with
  | .frameError _ bytes _ => bytes.length
  | c => ((requestOf c).map (fun x => x.2.2.length + 3)).getD 0

/-- What data out of link `l` has shifted in the frame that `c` ends: the bytes of the reply as it stood at the frame's start, and
0x00 after them (R122). -/
def State.clockedOut (s : State) (l : Link) (c : Instr) : List Byte := (s.part.links.get l).clockedOut (clocked c)

/-- A frame of link `l` in which data out shifted `out` has ended with reply `r` in the reply buffer: of the part, only the receive
logic, data out and the reply buffer of that link change (R121, R122, R125). -/
def Part.answered (p : Part) (l : Link) (out : List Byte) (r : Reply) : Part :=
  { p with links := p.links.set l { p.links.get l with rx := .idle, shiftOut := none, lastOut := out, reply := r } }

/-- The reply DONE to a request of kind `k` with the fields of its rule (R125, R192). -/
def doneReply (k : Kind) (fields : List Byte) : Reply := .form .done (k.code :: fields)

/-- The reply REFUSED to a request of kind `k` with its reason (R125, R192). -/
def refusedReply (k : Kind) (r : Reason) : Reply := .form .refused [k.code, r.code]

/-- A request that is refused with reason `r` has no effect beyond its reply (R126). -/
def Refuses (c : Instr) (s : State) (l : Link) (k : Kind) (r : Reason) : Prop :=
  exec c s = .next { s with part := s.part.answered l (s.clockedOut l c) (refusedReply k r) }

/-- A request that is done leaves the part `q`, with the reply DONE and its fields. -/
def Does (c : Instr) (s : State) (l : Link) (k : Kind) (fields : List Byte) (q : Part) : Prop :=
  exec c s = .next { s with part := q.answered l (s.clockedOut l c) (doneReply k fields) }

/-- A command takes the part from `s.part` to `q` and makes the steps `ds` due; the queue stays. -/
def Leads (c : Instr) (s : State) (q : Part) (ds : List Due) : Prop :=
  exec c s = .next { s with part := q, due := ds }

/-- The rows of the table that come about inside another step (log 3). -/
def dueRowOf : Instr → Option DueRow
  | .busUv => some .busUv
  | .chopperBlocked => some .chopperBlocked
  | .chopperRestored => some .chopperRestored
  | .overcurrent c => some (.overcurrent c)
  | .sampleLoss c => some (.sampleLoss c)
  | .captureEnd c => some (.captureEnd c)
  | .offsetStep c ph => some (.offsetStep c ph)
  | .recapture c => some (.recapture c)
  | .peakExhausted c => some (.peakExhausted c)
  | .holdEntry c => some (.holdEntry c)
  | .setpointTimeout c => some (.setpointTimeout c)
  | _ => none

/-- The commands that a bus unit's operation can let come first at the instant of its frame mark (R84, R107): all but the full
reset, the frame mark, the rows of other steps, and the valleys of the other carrier slots, which come after it. -/
def comesAtMark (s : State) (c : Instr) : Prop :=
  match c with
  | .fullReset => False
  | .frameMark _ _ => False
  | .valley ch _ _ _ => slotIn s.part.carrier.table ch = 0
  | c => dueRowOf c = none

/-- A channel mask byte names a channel by the bit of its number (R191). -/
def named (mask : Byte) (c : Channel) : Bool := mask.toNat.testBit c.val

/-- The channels that a mask byte names, in ascending order. -/
def namedChannels (mask : Byte) : List Channel := channels.filter (named mask)

/-- A part whose binding unit is changed. -/
def Part.withHolders (p : Part) (h : Six (Option Motion)) : Part := { p with binding := { p.binding with holders := h } }

/-- The bytes of a setpoint record as a master sends it: head, link slot, references, angle blocks (12.5). -/
def Record.wire : Record → List Byte
  | .peak => [0x20]
  | .set k i q blocks =>
    (if blocks.length = 1 then (0x11 : Byte) else 0x12) :: put8 k.val ++ putS16 i ++ putS16 q ++
      blocks.flatMap (fun b => put16 b.theta.toNat ++ putS16 b.dTheta)

/-- A record that its layout can carry: one or two angle blocks, references and angle steps of 16 bits (12.5). -/
def Record.fits : Record → Prop
  | .peak => True
  | .set _ i q blocks =>
    (blocks.length = 1 ∨ blocks.length = 2) ∧ (-32768 ≤ i ∧ i ≤ 32767) ∧ (-32768 ≤ q ∧ q ≤ 32767) ∧
      ∀ b ∈ blocks, -32768 ≤ b.dTheta ∧ b.dTheta ≤ 32767

/-- A record as it is stored: each reference clamped to +-32767 (R151). -/
def Record.stored : Record → Record
  | .peak => .peak
  | .set k i q blocks => .set k (max (-32767) i) (max (-32767) q) blocks

/-- A SET record that the walk of R149 passes: its slot is bound and its blocks are as many as the members. -/
def Record.passes (map : SlotMap) : Record → Prop
  | .peak => True
  | .set k _ _ blocks => ∃ e, map.get k = some e ∧ blocks.length = e.members.length

/-- The setpoint that a marked record gives channel `c` under a slot map, if it reaches it (R155, R156). -/
def setpointFor (map : SlotMap) (c : Channel) : Record × Bool → Option Setpoint
  | (.peak, _) => none
  | (.set k i q blocks, peak) =>
    match map.get k with
    | none => none
    | some e =>
      if blocks.length = e.members.length then
        ((e.members.zip blocks).find? (fun x => x.1.ch = c)).map
          (fun x => { idRef := i, iqRef := q, theta := x.2.theta, dTheta := x.2.dTheta, peak := peak, fresh := true })
      else none

/-! ### Requests as frames carry them -/

/-- The open batch of link `l` is lost: BATCH_LOST goes to its own queue; without an open batch nothing changes (R124). -/
def Part.withBatchLost (p : Part) (l : Link) : Part :=
  match l.motion with
  | some m =>
    if (p.batches.get m).isSome then ({ p with batches := p.batches.set m none }).send l .batchLost none .none else p
  | none => p

/-- A frame of link `l` that is rejected with the subcode of code `sub` (R124). -/
def Rejects (c : Instr) (s : State) (l : Link) (sub : Byte) : Prop :=
  exec c s = .next { s with part := (s.part.withBatchLost l).answered l (s.clockedOut l c) (.form .frameError [sub]) }

/-- The kind belongs to the request set of link `l` (7.6). -/
def Kind.inSetOf (k : Kind) (l : Link) : Bool :=
  match k with
  | .nop | .linkReset | .status | .events | .read | .ack => true
  | .claim | .release | .map | .unmap | .param | .enable | .disable | .set | .discard => l.motion.isSome
  | .budget | .bus | .classes | .ceiling | .timing | .slot | .withdraw | .restore | .edgeClear | .revoke => l.motion.isNone

/-- The length of a payload fits its kind (12.3, 12.4). -/
def Kind.fitsLength (k : Kind) (payload : List Byte) : Bool :=
  match k with
  | .nop => true
  | .linkReset | .status | .events | .discard | .edgeClear => payload.length = 0
  | .read | .ack | .claim | .release | .unmap | .enable | .disable | .revoke | .withdraw | .restore => payload.length = 1
  | .map => payload.length = 3 || payload.length = 5
  | .param =>
    match payload with
    | _ :: g :: f =>
      f.length = (if g = 1 then 6 else if g = 2 then 5 else if g = 3 then 8 else if g = 4 then 10 else if g = 5 then 6 else 5)
    | _ => false
  | .set => payload.length ≠ 0
  | .ceiling | .timing => payload.length = 5
  | .slot => payload.length = 2
  | .bus => payload.length = 9
  | .budget => payload.length = 20
  | .classes => payload.length % 4 = 0 && 4 ≤ payload.length && payload.length ≤ 24

/-- The first byte of a payload is in range for its kind on link `l`: a channel index, a link slot or a channel mask (R191). -/
def Kind.fitsFirst (k : Kind) (l : Link) (first : Byte) : Bool :=
  match k with
  | .read | .param | .ceiling | .slot | .classes => first.toNat < 6
  | .map | .unmap | .enable | .disable => first.toNat < 4
  | .ack => if l.motion.isSome then first.toNat < 4 else first.toNat < 64
  | .claim | .release | .revoke | .withdraw | .restore => first.toNat < 64
  | .nop | .linkReset | .status | .events | .discard | .edgeClear | .set | .timing | .bus | .budget => true

/-- The holders of the six channels as a reply carries them, CH0 first (12.3). -/
def holdersAs (h : Six (Option Motion)) : List Byte := h.toList.map (fun x => BitVec.ofNat 8 (holderCode x))

/-- The items of the channels in `cs` replaced by `f` of the channel and its item. -/
def changedAt {α : Type} (v : Six α) (cs : List Channel) (f : Channel → α → α) : Six α :=
  .ofFn (fun c => if c ∈ cs then f c (v.get c) else v.get c)

/-! ### Properties that every step keeps -/

/-- While RESET is low no channel is active; the legs of a channel that is not in RUN or HOLD are off, its on-times in force are
0 and none wait, and a channel in OFF, FAULT or SAFE_OFF has no pending setpoint (R3, R20, R35, R140). -/
def Part.bridgeOffIsOff (p : Part) : Prop :=
  (p.held = true → ∀ c, (p.stateOf c).active = false) ∧
  ∀ c, (p.stateOf c).bridgeOn = false →
    (p.carrier.drives.get c).legs = .off ∧ (p.carrier.drives.get c).onTimes = .zero ∧
    (p.carrier.drives.get c).waiting = none ∧ ((p.stateOf c).active = false → (p.ctx.get c).setpoint = none)

/-- An event queue holds at most 12 entries, each count lies in 1 to 255, and the attention line is active exactly while the
queue holds an entry or the overrun flag is set (R133, R187). -/
def LinkIf.queueSound (i : LinkIf) : Prop :=
  i.queue.length ≤ 12 ∧ (∀ e ∈ i.queue, 1 ≤ e.count ∧ e.count ≤ 255) ∧ i.attention = (!i.queue.isEmpty || i.overrun)

/-- The three queues are sound. -/
def Part.queuesSound (p : Part) : Prop := ∀ l, (p.links.get l).queueSound

/-- A reply has at most 60 payload bytes and the CRC of its bytes (R123, R192). -/
def Reply.sound (r : Reply) : Prop := r.payload.length ≤ 60 ∧ r.crc = crc8 (frameBody r.kind.code r.payload)

/-- The replies are sound, and an open batch holds 1 to 8 records (R147). -/
def Part.repliesAndBatchesSound (p : Part) : Prop :=
  (∀ l, (p.links.get l).reply.sound) ∧ ∀ m rs, p.batches.get m = some rs → 1 ≤ rs.length ∧ rs.length ≤ 8

/-- The limits of a channel stand in their order against the ceilings, and the peak allowance within Amax (R170 to R172). -/
def Context.limitsOrdered (x : Context) : Prop :=
  x.limitsG.icont ≤ x.limitsG.ipk ∧ x.limitsG.ipk ≤ x.ipkCeil ∧ x.limitsG.icont ≤ x.icontCeil ∧ x.icontCeil ≤ x.ipkCeil ∧
    x.limitsG.idMax ≤ x.limitsG.ipk ∧ x.allowance ≤ x.limitsG.amax

/-- The limits of all six channels are ordered. -/
def Part.limitsOrdered (p : Part) : Prop := ∀ c, (p.ctx.get c).limitsOrdered

/-- The channels that the slot map of a motion link names, slot by slot. -/
def Part.mapChannels (p : Part) (m : Motion) : List Channel :=
  (p.binding.maps.get m).toList.flatMap (fun e => (e.map SlotEntry.chans).getD [])

/-- A channel stands in at most one entry of the whole part, and only in the map of the link that holds it; a channel in
CAPTURE, RUN or HOLD stands in one (R139, R141). -/
def Part.bindingSound (p : Part) : Prop :=
  (p.mapChannels .a ++ p.mapChannels .b).Nodup ∧
  (∀ m c, c ∈ p.mapChannels m → p.binding.holders.get c = some m) ∧
  ∀ c, (p.stateOf c).active = true → c ∈ p.mapChannels .a ++ p.mapChannels .b

/-- A channel in FAULT has a cause, and a channel with a cause is in FAULT or SAFE_OFF (R176). -/
def Part.causesSound (p : Part) : Prop :=
  ∀ c, (p.stateOf c = .fault → p.causesOf c ≠ .empty) ∧
    (p.causesOf c ≠ .empty → p.stateOf c = .fault ∨ p.stateOf c = .safeOff)

/-- While TEN is low the drop flag is set, and a channel is in SAFE_OFF exactly while the drop flag or its withdrawn flag is
set (R110 to R117). -/
def Part.torqueSound (p : Part) : Prop :=
  (p.torque.ten = false → p.torque.drop = true) ∧
  ∀ c, p.stateOf c = .safeOff ↔ (p.torque.drop = true ∨ p.torque.withdrawn.get c = true)

/-- A slot table is one to one (R30). -/
def tableSound (t : Six Channel) : Prop := t.toList.Nodup

/-- A carrier period is a multiple of 12 in 2400 to 24000 (R24, R26). -/
def periodSound (n : Nat) : Prop := 2400 ≤ n ∧ n ≤ 24000 ∧ n % 12 = 0

/-- The carrier's settings lie in their ranges, both slot tables are one to one, every grant scale lies in 0 to 4096, and
every offset within 2048 +- Ro (2.1, R30, R43, R101). -/
def Part.settingsSound (p : Part) : Prop :=
  (periodSound p.carrier.period ∧ (∀ n, p.carrier.pendingP = some n → periodSound n)) ∧
  (p.carrier.blank ≤ 600 ∧ 1 ≤ p.carrier.divider ∧ p.carrier.divider ≤ 16 ∧ p.carrier.syncCount < p.carrier.divider) ∧
  (tableSound p.carrier.table ∧ ∀ t, p.carrier.pendingTable = some t → tableSound t) ∧
  ∀ c, p.bus.scale.get c ≤ 4096 ∧
    ((p.sense.get c).offA - 2048).natAbs ≤ (p.ctx.get c).senseG.ro ∧
    ((p.sense.get c).offB - 2048).natAbs ≤ (p.ctx.get c).senseG.ro

end Sys2Proof.Machine
end

