-- ==== Sys2Proof/Certificates/Slice0/Obligations.lean ====
section
/-! DEFINITION. The statements about the part, in the order of OBLIGATIONS.json. A statement writes a changed state as the state
before with the changed fields replaced, so what it does not name is unchanged. -/

open Sys2Proof Sys2Proof.Machine

/-! ### The machine and its agenda -/

/-- A step takes the command at the front of the queue. The queue and this reading of a step are the model's choice (log 2). -/
def Obligations.StepTakesFrontCommand : Prop :=
  ∀ (c : Instr) (s : State) (rest : List Instr),
    step { s with pending := c :: rest } = exec c { s with pending := rest }

/-- On an empty queue a step takes what is due, and idles when nothing is; a command of its own finds the due steps taken; a
bus operation that waits for commands of its instant comes after them (the model's choices, log 2, 3 and 4). The due steps are
taken first to last, each with what it makes due before the rest; the bus operation and the review that are due are those of
the bus unit. -/
def Obligations.DueStepsComeFirst : Prop :=
  (∀ s : State, s.pending = [] → step s = .next { s with part := s.part.settle s.due, due := [] }) ∧
  (∀ s : State, s.pending = [] → s.due = [] → step s = .next s) ∧
  (∀ (c : Instr) (s : State), dueRowOf c = none → c ≠ .fullReset →
    ((∀ ds n raw, s.due ≠ ds ++ [.busOperation (n + 1) raw]) ∨ ¬comesAtMark s c) →
    exec c s = exec c { s with part := s.part.settle s.due, due := [] }) ∧
  (∀ (c : Instr) (s : State) (ds : List Due) (n : Nat) (raw : Raw), comesAtMark s c →
    s.due = ds ++ [.busOperation (n + 1) raw] →
    ∃ q es, exec c { s with part := s.part.settle ds, due := [] } = .next { s with part := q, due := es } ∧
      exec c s = .next { s with part := q, due := es ++ [.busOperation n raw] }) ∧
  (∀ (p : Part) (d : Due) (ds : List Due), p.settle [] = p ∧
    p.settle (d :: ds) = (d.take p).1.settle ((d.take p).2 ++ ds)) ∧
  (∀ (p : Part) (n : Nat) (raw : Raw), (Due.busOperation n raw).take p = p.busOperation raw ∧ Due.review.take p = p.review)

/-! ### Reset -/

/-- FULL_RESET: every block in the values of its table. The levels of TEN and BFLT are not part of it (log 7). That the due
steps are dropped and that the record of data out is empty are the model's choices, for its own agenda (log 3) and its own
field lastOut (log 23). -/
def Obligations.FullResetValues : Prop :=
  ∀ s : State, ∃ t, exec .fullReset s = .next t ∧ t.due = [] ∧ t.pending = s.pending ∧ t.part.held = true ∧
    (∀ l, t.part.links.get l = { rx := .idle, shiftOut := none, lastOut := [], reply := .form .empty [], queue := [],
                                 overrun := false, attention := false }) ∧
    (∀ m, t.part.batches.get m = none ∧ t.part.binding.toggles.get m = false ∧
      ∀ k, (t.part.binding.maps.get m).get k = none) ∧
    (∀ c, t.part.binding.holders.get c = none) ∧
    (∀ c, t.part.ctx.get c =
      { state := .off, setpoint := none, idRef := 0, iqRef := 0, peak := false, theta := 0, dTheta := 0, intD := 0, intQ := 0,
        flags := ⟨false, false, false, false⟩, lastVd := 0, lastVq := 0, meas := ⟨0, 0, 0, 0⟩, allowance := 0, stale := 0,
        hold := 0, demand := 0,
        record := { state := .off, valid := false, meas := ⟨0, 0, 0, 0⟩, idRef := 0, iqEff := 0, vd := 0, vq := 0,
                    flags := ⟨false, false, false, false⟩, onTimes := ⟨0, 0, 0⟩, demand := 0, power := 0, scale := 4096,
                    allowance := 0, theta := 0 }
        flight := none, senseG := ⟨0, 0, 64⟩, trackG := ⟨8, 256, 32, 16⟩, loopG := ⟨0, 0, 0, 0⟩,
        limitsG := ⟨0, 0, 0, 31130, 0⟩, protectG := ⟨0, 0, 2, 3⟩, holdG := ⟨8, 100, 800⟩,
        marks := ⟨false, true, false, false, false, false⟩, icontCeil := 32767, ipkCeil := 32767 }) ∧
    t.part.carrier =
      { marked := false, period := 12000, pendingP := none, blank := 200, divider := 1, syncCount := 0, sync := false,
        table := ⟨0, 1, 2, 3, 4, 5⟩, pendingTable := none, frameMark := 0, drives := t.part.carrier.drives } ∧
    (∀ c, t.part.carrier.drives.get c =
      { onTimes := ⟨0, 0, 0⟩, waiting := none, valid := true, legs := ⟨⟨.off, .none⟩, ⟨.off, .none⟩, ⟨.off, .none⟩⟩ }) ∧
    (∀ c, t.part.sense.get c =
      { offA := 2048, offB := 2048, bucketA := 0, bucketB := 0, excursion := 0, quiet := 0, sumA := 0, sumB := 0, count := 0,
        ocCount := 0, dropCount := 0 }) ∧
    t.part.bus =
      { vdc := 0, gv := 0, ov := 8000, uv := 4000, uvh := 200, nuv := 4, uvCount := 0, feed := 0, regen := 0, cap := 0,
        cool := 0, hmax := 0, budgetSet := false, cls := .all 3, reserve := .all 0, scale := .all 4096, condition := .normal,
        brkOnTime := 0, brk := false, heat := 0, blocked := false } ∧
    (∀ c, t.part.causesOf c = .empty ∧ (∀ l, t.part.seenOf l c = .empty) ∧ t.part.torque.withdrawn.get c = false) ∧
    t.part.torque.drop = false

/-- While RESET is low no command but the reset's own has an effect. At the end of the reset the level of TEN decides the start
states, without events, select lines found low are ignored until they rise, and then each active BFLT line raises BRIDGE,
in ascending channel order (the place of the levels and the commands without effect are log 6 and 7; data out of an ignored frame is log 21; the
order of several BFLT lines is log 22). -/
def Obligations.ResetHoldsAndEnds : Prop :=
  (∀ (c : Instr) (s : State), c ≠ .fullReset → (∀ t b l, c ≠ .resetEnd t b l) → s.part = .afterReset true → s.due = [] →
    exec c s = .next s) ∧
  (∀ (s : State) (tenHigh : Bool) (bflt : Six Bool) (sel : Three Bool), s.due = [] → s.part.held = true →
    (∀ c, s.part.torque.bflt.get c = false) →
    ∀ q : Part,
      q = { s.part with
        held := false
        ctx := if tenHigh then s.part.ctx else .ofFn (fun c => { s.part.ctx.get c with state := .safeOff })
        torque := if tenHigh then { s.part.torque with ten := true } else { s.part.torque with ten := false, drop := true }
        links := { a := { s.part.links.a with rx := if sel.a then .ignoring else s.part.links.a.rx }
                   b := { s.part.links.b with rx := if sel.b then .ignoring else s.part.links.b.rx }
                   s := { s.part.links.s with rx := if sel.s then .ignoring else s.part.links.s.rx } } } →
      Leads (.resetEnd tenHigh bflt sel) s
        ((channels.filter bflt.get).foldl
          (fun r c => ({ r with torque := { r.torque with bflt := r.torque.bflt.set c true } }).raise .bridge c) q) [])

/-! ### Arithmetic -/

/-- The words of R1: rounded, truncated, isqrt, clamped. -/
def Obligations.ArithmeticWords : Prop :=
  (∀ (n : Int) (d : Nat), 0 < d →
    (2 * (roundDiv n d * d - n)).natAbs ≤ d ∧
    ((2 * (roundDiv n d * d - n)).natAbs = d → n.natAbs < (roundDiv n d * d).natAbs)) ∧
  (∀ (n : Int) (d : Nat), 0 < d → (truncDiv n d * d).natAbs ≤ n.natAbs ∧ n.natAbs < ((truncDiv n d).natAbs + 1) * d ∧
    0 ≤ truncDiv n d * n) ∧
  (∀ n : Nat, n < 2 ^ 64 → isqrt n * isqrt n ≤ n ∧ n < (isqrt n + 1) * (isqrt n + 1)) ∧
  (∀ lo hi x : Int, lo ≤ hi → (x < lo → clampI lo hi x = lo) ∧ (hi < x → clampI lo hi x = hi) ∧
    (lo ≤ x → x ≤ hi → clampI lo hi x = x))

/-! ### Carrier unit -/

/-- FRAME_MARK: pending period and slot table installed, the counter stepped, the SYNC count and its pulse; the bus unit's
operation at once or after further commands of the same instant (log 4). -/
def Obligations.FrameMarkOpensPeriod : Prop :=
  ∀ (s : State) (raw : Raw), s.due = [] → s.part.held = false →
    ∀ q : Part,
      q = { s.part with carrier := { s.part.carrier with
        marked := true
        period := s.part.carrier.pendingP.getD s.part.carrier.period
        pendingP := none
        table := s.part.carrier.pendingTable.getD s.part.carrier.table
        pendingTable := none
        frameMark := s.part.carrier.frameMark + 1
        syncCount := if s.part.carrier.syncCount + 1 < s.part.carrier.divider then s.part.carrier.syncCount + 1 else 0
        sync := decide (s.part.carrier.divider ≤ s.part.carrier.syncCount + 1) } } →
      (∀ n : Nat, Leads (.frameMark raw (n + 1)) s q [.busOperation (n + 1) raw]) ∧
      Leads (.frameMark raw 0) s (q.busOperation raw).1 (q.busOperation raw).2

/-- VALLEY of a channel with no computation in flight: SYNC falls at the valley of carrier slot 1; the waiting on-times are
loaded and the legs of a channel in RUN or HOLD begin their period; the sample is judged and the verdict recorded, with
SAMPLE_DROPPED for a drop; the sense unit handles the sample; the computation of a channel in RUN or HOLD starts, unless a
cause of the sample comes first (which of the two comes first is an operand, log 4). Before the first frame mark there is no
valley. What the sense unit leaves due is the model's agenda (log 3). A computation that starts takes its inputs from the
context, the parameter groups, the polarity of the channel in its link slot, the grant scale, Vdc, P, W and the sample, and a
fresh pending setpoint ceases to be fresh. A leg begins its period high for an on-time of the whole period, else low, with no
edge passed. -/
def Obligations.ValleyTakesItsSteps : Prop :=
  (∀ (p : Part) (c : Channel) (i : Option (Int × Int)) (x : Context) (rev : Bool), p.bindingSound →
    (p.stateOf c).bridgeOn = true → x = p.ctx.get c →
    (∀ m k e y, (p.binding.maps.get m).get k = some e → y ∈ e.members → y.ch = c → rev = y.reversed) →
    p.startComputation c i = { p with ctx := p.ctx.set c { x with
      setpoint := x.setpoint.map (fun y => { y with fresh := false })
      flight := some
        { state := x.state, setpoint := x.setpoint, idRef := x.idRef, iqRef := x.iqRef, theta := x.theta, dTheta := x.dTheta,
          peak := x.peak, intD := x.intD, intQ := x.intQ, flags := x.flags, lastVd := x.lastVd, lastVq := x.lastVq,
          meas := x.meas, allowance := x.allowance, stale := x.stale, hold := x.hold, loopG := x.loopG,
          limitsG := x.limitsG, holdG := x.holdG, reversed := rev, scale := p.bus.scale.get c, vdc := p.bus.vdc,
          period := p.carrier.period, blank := p.carrier.blank, sample := i } } }) ∧
  (∀ (period : Nat) (t : OnTimes) (x : Nat) (l : LegState),
    ((x = t.a ∧ l = (legsAtValley period t).a) ∨ (x = t.b ∧ l = (legsAtValley period t).b) ∨
      (x = t.c ∧ l = (legsAtValley period t).c)) →
    l = { level := if 0 < x ∧ x = period then .high else .low, passed := .none }) ∧
  ∀ (s : State) (c : Channel) (a b : Raw) (o : ValleyOrder), s.due = [] → s.part.held = false →
    (s.part.carrier.marked = false → exec (.valley c a b o) s = .next s) ∧
    (s.part.carrier.marked = true → (s.part.ctx.get c).flight = none → tableSound s.part.carrier.table →
      ∀ (d : Drive) (p1 p2 : Part),
        d = s.part.carrier.drives.get c →
        p1 = { s.part with carrier := { s.part.carrier with
          sync := if s.part.carrier.table.get 1 = c then false else s.part.carrier.sync
          drives := s.part.carrier.drives.set c { d with
            onTimes := d.waiting.getD d.onTimes
            waiting := none
            legs := if (s.part.stateOf c).bridgeOn then legsAtValley s.part.carrier.period (d.waiting.getD d.onTimes)
                    else d.legs } } } →
        p2 = (if p1.judge c then p1.modDrive c (fun d => { d with valid := true })
              else (p1.modDrive c (fun d => { d with valid := false })).sendChannel .sampleDropped c .none) →
        Leads (.valley c a b o) s
          (if (s.part.stateOf c).bridgeOn = true ∧ (o = .startFirst ∨ (p2.senseSample c a b (p1.judge c)).2 = []) then
            (p2.senseSample c a b (p1.judge c)).1.startComputation c
              (if p1.judge c then some (p2.currents c a b) else none)
          else (p2.senseSample c a b (p1.judge c)).1)
          (p2.senseSample c a b (p1.judge c)).2)

/-- The judgement of a sample: it is dropped exactly when some leg of another channel in RUN or HOLD has an edge within W of
the time from that channel's last valley. -/
def Obligations.SampleJudgedByEdges : Prop :=
  ∀ (p : Part) (i : Channel) (ki : CarrierSlot), tableSound p.carrier.table → p.carrier.table.get ki = i →
    (p.judge i = false ↔
      ∃ (j : Channel) (kj : CarrierSlot) (x e : Nat), j ≠ i ∧ p.carrier.table.get kj = j ∧
        (p.stateOf j = .run ∨ p.stateOf j = .hold) ∧
        (x = (p.carrier.drives.get j).onTimes.a ∨ x = (p.carrier.drives.get j).onTimes.b ∨
          x = (p.carrier.drives.get j).onTimes.c) ∧
        0 < x ∧ x < p.carrier.period ∧
        (e = (p.carrier.period - x) / 2 ∨ e = (p.carrier.period - x) / 2 + x) ∧
        ((e : Int) - ((ki.val + 6 - kj.val) % 6 * (p.carrier.period / 6) : Nat)).natAbs ≤ p.carrier.blank)

/-- LEG_EDGE and BRK_ON_TIME_END: a leg of a channel in RUN or HOLD with an on-time between 0 and P rises, then falls, and then
has no edge until the next valley; BRK goes low when its on-time is shorter than the period (log 13 and 16 say what further
edges and a whole period's on-time give). -/
def Obligations.CarrierEventsMoveOutputs : Prop :=
  (∀ (s : State) (c : Channel) (leg : Leg), s.due = [] →
    ∀ (d : Drive) (x : Nat) (l l' : LegState), d = s.part.carrier.drives.get c →
      (leg = .a → x = d.onTimes.a ∧ l = d.legs.a) → (leg = .b → x = d.onTimes.b ∧ l = d.legs.b) →
      (leg = .c → x = d.onTimes.c ∧ l = d.legs.c) →
      l' = (if 0 < x ∧ x < s.part.carrier.period then
              match l.passed with
              | .none => ⟨.high, .rise⟩
              | .rise => ⟨.low, .fall⟩
              | .fall => l
            else l) →
      ((s.part.stateOf c = .run ∨ s.part.stateOf c = .hold) →
        Leads (.legEdge c leg) s
          { s.part with carrier := { s.part.carrier with drives := s.part.carrier.drives.set c { d with
              legs := match leg with
                | .a => { d.legs with a := l' }
                | .b => { d.legs with b := l' }
                | .c => { d.legs with c := l' } } } } []) ∧
      ((s.part.stateOf c).bridgeOn = false → exec (.legEdge c leg) s = .next s)) ∧
  (∀ s : State, s.due = [] →
    (s.part.bus.brkOnTime < s.part.carrier.period →
      Leads .brkOnTimeEnd s { s.part with bus := { s.part.bus with brk := false } } []) ∧
    (s.part.carrier.period ≤ s.part.bus.brkOnTime → exec .brkOnTimeEnd s = .next s))

/-! ### Sense unit -/

/-- What the sense unit does with a sample, by the state of the channel at its valley and the verdict. SAMPLE_LOSS, OVERCURRENT,
CAPTURE_END, OFFSET_STEP and RECAPTURE are left due by it (the model's choice, log 3). -/
def Obligations.SenseUnitHandlesSample : Prop :=
  ∀ (p : Part) (c : Channel) (a b : Raw) (u : Sense), u = p.sense.get c →
    ((p.stateOf c = .run ∨ p.stateOf c = .hold) →
      (p.senseSample c a b false =
        ({ p with sense := p.sense.set c { u with dropCount := u.dropCount + 1 } },
          if (p.ctx.get c).protectG.dl ≤ u.dropCount + 1 then [.sampleLoss c] else [])) ∧
      (∀ (ia ib : Int) (m n : Nat),
        ia = clampCurrent (roundDiv (((a.val : Int) - u.offA) * (p.ctx.get c).senseG.gA) 256) →
        ib = clampCurrent (roundDiv (((b.val : Int) - u.offB) * (p.ctx.get c).senseG.gB) 256) →
        m = max ia.natAbs (max ib.natAbs (clampCurrent (-ia - ib)).natAbs) →
        n = (if (p.ctx.get c).protectG.itrip < m then u.ocCount + 1
             else if m < (p.ctx.get c).protectG.itrip - (p.ctx.get c).protectG.ih then 0 else u.ocCount) →
        p.currents c a b = (ia, ib) ∧
        p.senseSample c a b true =
          ({ p with sense := p.sense.set c { u with ocCount := n, dropCount := 0 } },
            if (p.ctx.get c).protectG.dt ≤ n then [.overcurrent c] else []))) ∧
    (p.stateOf c = .capture →
      p.senseSample c a b false =
        ({ p with sense := p.sense.set c { u with quiet := u.quiet - 1, dropCount := u.dropCount + 1 } },
          if (p.ctx.get c).protectG.dl ≤ u.dropCount + 1 then [.sampleLoss c] else []) ∧
      p.senseSample c a b true =
        ({ p with sense := p.sense.set c { u with quiet := u.quiet - 1, sumA := u.sumA + a.val, sumB := u.sumB + b.val,
                                                  count := u.count + 1, dropCount := 0 } },
          if 64 ≤ u.count + 1 then [.captureEnd c] else [])) ∧
    ((p.stateOf c = .off ∨ p.stateOf c = .fault ∨ p.stateOf c = .safeOff) →
      (0 < u.quiet → ∀ v, p.senseSample c a b v =
        ({ p with sense := p.sense.set c { u with quiet := u.quiet - 1 } }, [])) ∧
      (u.quiet = 0 → p.senseSample c a b false = (p, [])) ∧
      (u.quiet = 0 → ∀ (dA dB : Int) (g : TrackGroup), dA = (a.val : Int) - u.offA → dB = (b.val : Int) - u.offB →
        g = (p.ctx.get c).trackG →
        ((dA.natAbs ≤ g.wt ∧ dB.natAbs ≤ g.wt) → p.senseSample c a b true =
          ({ p with sense := p.sense.set c { u with bucketA := u.bucketA + dA, bucketB := u.bucketB + dB, excursion := 0 } },
            (if (g.bt : Int) ≤ u.bucketA + dA ∨ u.bucketA + dA ≤ -(g.bt : Int) then [.offsetStep c .a] else []) ++
            (if (g.bt : Int) ≤ u.bucketB + dB ∨ u.bucketB + dB ≤ -(g.bt : Int) then [.offsetStep c .b] else []))) ∧
        (¬(dA.natAbs ≤ g.wt ∧ dB.natAbs ≤ g.wt) → p.senseSample c a b true =
          ({ p with sense := p.sense.set c { u with excursion := u.excursion + 1 } },
            if g.nx ≤ u.excursion + 1 then [.recapture c a b] else []))))

/-- CAPTURE_END when it is due (log 3) for a channel in CAPTURE: with both new offsets in range they are installed with empty buckets
and the channel enters RUN with all legs low-side on; with one out of range OFFSET_RANGE is raised and the offsets stay. The
sums and the count are 0 in both cases. OFFSET_STEP and RECAPTURE when they are due: a full bucket moves its offset by one
count, within 2048 +- Ro, and is emptied; a recapture sets the excursion counter to 0 and takes both raw values as offsets
with OFFSET_RECAPTURED, or raises OFFSET_RANGE. -/
def Obligations.OffsetsCapturedAndTracked : Prop :=
  (∀ (s : State) (c : Channel) (ds : List Due) (u : Sense) (ro : Nat) (a b : Int), s.due = .captureEnd c :: ds →
    s.part.stateOf c = .capture → u = s.part.sense.get c → ro = (s.part.ctx.get c).senseG.ro →
    a = ((u.sumA + 32) / 64 : Nat) → b = ((u.sumB + 32) / 64 : Nat) →
    (((a - 2048).natAbs ≤ ro ∧ (b - 2048).natAbs ≤ ro) →
      Leads (.captureEnd c) s
        (({ s.part with
            sense := s.part.sense.set c { u with sumA := 0, sumB := 0, count := 0, offA := a, offB := b, bucketA := 0,
                                                 bucketB := 0 }
            carrier := { s.part.carrier with drives := s.part.carrier.drives.set c { s.part.carrier.drives.get c with legs := ⟨⟨.low, .none⟩, ⟨.low, .none⟩, ⟨.low, .none⟩⟩ } }
            ctx := s.part.ctx.set c { s.part.ctx.get c with state := .run } }).sendChannel .stateEntered c (.entered .run)) ds) ∧
    (¬((a - 2048).natAbs ≤ ro ∧ (b - 2048).natAbs ≤ ro) →
      Leads (.captureEnd c) s
        (({ s.part with sense := s.part.sense.set c { u with sumA := 0, sumB := 0, count := 0 } }).raise .offsetRange c) ds)) ∧
  (∀ (s : State) (c : Channel) (ds : List Due) (u : Sense) (ro bt : Nat), u = s.part.sense.get c →
    ro = (s.part.ctx.get c).senseG.ro → bt = (s.part.ctx.get c).trackG.bt → 0 < bt →
    (s.due = .offsetStep c .a :: ds →
      ((bt : Int) ≤ u.bucketA → Leads (.offsetStep c .a) s
        { s.part with sense := s.part.sense.set c { u with offA := clampI (2048 - ro) (2048 + ro) (u.offA + 1), bucketA := 0 } } ds) ∧
      (u.bucketA ≤ -(bt : Int) → Leads (.offsetStep c .a) s
        { s.part with sense := s.part.sense.set c { u with offA := clampI (2048 - ro) (2048 + ro) (u.offA - 1), bucketA := 0 } } ds)) ∧
    (s.due = .offsetStep c .b :: ds →
      ((bt : Int) ≤ u.bucketB → Leads (.offsetStep c .b) s
        { s.part with sense := s.part.sense.set c { u with offB := clampI (2048 - ro) (2048 + ro) (u.offB + 1), bucketB := 0 } } ds) ∧
      (u.bucketB ≤ -(bt : Int) → Leads (.offsetStep c .b) s
        { s.part with sense := s.part.sense.set c { u with offB := clampI (2048 - ro) (2048 + ro) (u.offB - 1), bucketB := 0 } } ds))) ∧
  (∀ (s : State) (c : Channel) (a b : Raw) (ds : List Due) (u : Sense) (ro : Nat), s.due = .recapture c a b :: ds →
    u = s.part.sense.get c → ro = (s.part.ctx.get c).senseG.ro →
    ((((a.val : Int) - 2048).natAbs ≤ ro ∧ ((b.val : Int) - 2048).natAbs ≤ ro) →
      Leads (.recapture c) s
        (({ s.part with sense := s.part.sense.set c { u with excursion := 0, offA := a.val, offB := b.val, bucketA := 0,
                                                             bucketB := 0 } }).sendChannel .offsetRecaptured c .none) ds) ∧
    (¬(((a.val : Int) - 2048).natAbs ≤ ro ∧ ((b.val : Int) - 2048).natAbs ≤ ro) →
      Leads (.recapture c) s
        (({ s.part with sense := s.part.sense.set c { u with excursion := 0 } }).raise .offsetRange c) ds))

/-- The rows that raise a cause or send an event inside another step, when they are due, and how a row that is spelled finds its
place: the due steps before it are taken first, each with what it makes due, and a row that is not due then has no effect of
its own (the model's choice, log 3). -/
def Obligations.DueRowsActWhenDue : Prop :=
  (∀ (s : State) (i : Instr) (r : DueRow), dueRowOf i = some r →
    (s.due = [] → exec i s = .next s) ∧
    (∀ d ds, s.due = d :: ds →
      (d.row = some r → Leads i s (d.take s.part).1 ((d.take s.part).2 ++ ds)) ∧
      (d.row ≠ some r →
        exec i s = exec i { s with part := (d.take s.part).1, due := (d.take s.part).2 ++ ds }))) ∧
  ∀ (s : State) (ds : List Due),
    (∀ cs, s.due = .busUv cs :: ds → Leads .busUv s (cs.foldl (fun q c => q.raise .busUv c) s.part) ds) ∧
    (s.due = .chopperBlocked :: ds → Leads .chopperBlocked s
      (({ s.part with bus := { s.part.bus with blocked := true } }).send .s .chopperBlocked none .none) ds) ∧
    (s.due = .chopperRestored :: ds → Leads .chopperRestored s
      (({ s.part with bus := { s.part.bus with blocked := false } }).send .s .chopperRestored none .none) ds) ∧
    ∀ c : Channel,
      (s.due = .overcurrent c :: ds → Leads (.overcurrent c) s (s.part.raise .overcurrent c) ds) ∧
      (s.due = .sampleLoss c :: ds → Leads (.sampleLoss c) s (s.part.raise .sampleLoss c) ds) ∧
      (s.due = .setpointTimeout c :: ds → Leads (.setpointTimeout c) s (s.part.raise .setpointTimeout c) ds) ∧
      (s.due = .peakExhausted c :: ds → Leads (.peakExhausted c) s (s.part.sendChannel .peakExhausted c .none) ds) ∧
      (s.due = .holdEntry c :: ds → s.part.stateOf c ≠ .run → Leads (.holdEntry c) s s.part ds) ∧
      (s.due = .holdEntry c :: ds → s.part.stateOf c = .run → Leads (.holdEntry c) s
        (({ s.part with ctx := s.part.ctx.set c { s.part.ctx.get c with hold := 0, state := .hold } }).sendChannel
          .stateEntered c (.entered .hold)) ds)

/-! ### Bus budget unit -/

/-- The bus unit's operation: the measurement, the overvoltage check on the channels then active, the UV debounce count, and
then BUS_UV with the review after it, or the review at once (that BUS_UV and the review are left due is the model's choice,
log 3). BUS_UV is raised on the channels that were active at the measurement, so that with both checks failing each of them
holds both causes. -/
def Obligations.BusOperationInThreeParts : Prop :=
  ∀ (p : Part) (raw : Raw) (vdc n : Nat) (q : Part) (cs : List Channel),
    cs = channels.filter (fun c => (p.stateOf c).active) →
    vdc = (clampI 0 9000 (roundDiv (raw.val * p.bus.gv : Nat) 256)).toNat →
    n = (if vdc < p.bus.uv then min 15 (p.bus.uvCount + 1) else 0) →
    q = (if p.bus.ov < vdc then
          cs.foldl (fun q c => q.raise .busOv c)
            { p with bus := { p.bus with vdc := vdc } }
         else { p with bus := { p.bus with vdc := vdc } }) →
    p.busOperation raw =
      (if p.bus.nuv ≤ n then ({ q with bus := { q.bus with uvCount := n } }, [.busUv cs, .review])
       else ({ q with bus := { q.bus with uvCount := n } }).review) ∧
    ∀ (c : Channel) (r : Part), (p.stateOf c).active = true → r = ((Due.busUv cs).take q).1 →
      (r.causesOf c).busUv = true ∧ (p.bus.ov < vdc → (r.causesOf c).busOv = true) ∧ r.stateOf c = .fault

/-- The entries of a review: the channels in RUN or HOLD outside two-member slots, and the two-member slots with a member in RUN
or HOLD. -/
def Obligations.ReviewEntriesFormed : Prop :=
  ∀ (p : Part) (e : Entry), p.bindingSound →
    (e ∈ p.entries ↔
      (∃ c, (p.stateOf c).bridgeOn = true ∧
        (∀ m k x y, (p.binding.maps.get m).get k = some ⟨x, some y⟩ → x.ch ≠ c ∧ y.ch ≠ c) ∧
        e = { chans := [c], demand := (p.ctx.get c).demand, cls := p.bus.cls.get c, reserve := p.bus.reserve.get c }) ∨
      (∃ m k x y, (p.binding.maps.get m).get k = some ⟨x, some y⟩ ∧
        ((p.stateOf x.ch).bridgeOn = true ∨ (p.stateOf y.ch).bridgeOn = true) ∧
        e = { chans := [x.ch, y.ch]
              demand := (if (p.stateOf x.ch).bridgeOn then (p.ctx.get x.ch).demand else 0) +
                (if (p.stateOf y.ch).bridgeOn then (p.ctx.get y.ch).demand else 0)
              cls := min (p.bus.cls.get x.ch) (p.bus.cls.get y.ch)
              reserve := p.bus.reserve.get x.ch + p.bus.reserve.get y.ch }))

/-- What a review leaves: the grant scales by state and entry, written in ascending channel order, with BUDGET_LIMITED for a scale
that leaves 4096 and BUDGET_RELEASED for one that returns to it; the condition, the BRK on-time and BRK, the heat; and the row
for the chopper, left due (the model's choice, log 3). -/
def Obligations.ReviewWritesBusUnit : Prop :=
  ∀ (p : Part) (capEff pch h : Nat), capEff = (if p.bus.blocked then 0 else p.bus.cap) →
    pch = min capEff (regenSum p.entries - motoringSum p.entries - p.bus.regen) →
    h = min 4294967295 (p.bus.heat + pch - p.bus.cool) →
    ∃ sc : Channel → Nat,
      (∀ c, (p.stateOf c).bridgeOn = false → sc c = 4096) ∧
      (∀ c, (p.stateOf c).bridgeOn = true → ∃ e ∈ p.entries, c ∈ e.chans ∧ sc c = entryScale p.bus p.entries capEff e) ∧
      ∀ (written : Part → Channel → Part) (q : Part),
        (∀ r c, written r c = { r with bus := { r.bus with scale := r.bus.scale.set c (sc c) } }) →
        q = channels.foldl
          (fun r c =>
            if r.bus.scale.get c = 4096 ∧ sc c < 4096 then (written r c).sendChannel .budgetLimited c .none
            else if r.bus.scale.get c < 4096 ∧ sc c = 4096 then (written r c).sendChannel .budgetReleased c .none
            else written r c) p →
        p.review =
          ({ q with
              bus := { q.bus with
                condition := conditionOf p.bus p.entries capEff
                brkOnTime := if p.bus.cap = 0 then 0 else p.carrier.period * pch / p.bus.cap
                brk := decide (0 < if p.bus.cap = 0 then 0 else p.carrier.period * pch / p.bus.cap)
                heat := h } },
            if p.bus.blocked = false ∧ 0 < p.bus.hmax ∧ p.bus.hmax ≤ h then [.chopperBlocked]
            else if p.bus.blocked = true ∧ (p.bus.hmax = 0 ∨ h ≤ p.bus.hmax / 2) then [.chopperRestored]
            else [])

/-- The condition of a review and the scale of an entry: 4096 but for a motoring entry of a motoring-limited review and a
regenerating entry of a regen-limited one, which take 4096 G / |D|; and the grant G by the reserve step and the class step. -/
def Obligations.ScalesFollowGrants : Prop :=
  (∀ (b : Bus) (es : List Entry) (capEff : Nat) (e : Entry) (t n : Int),
    t = (es.map (fun e => max e.demand 0)).sum → n = (es.map (fun e => max (-e.demand) 0)).sum →
    ((b.feed : Int) < t - n →
      conditionOf b es capEff = .motoringLimited ∧
      (e.demand ≤ 0 → entryScale b es capEff e = 4096) ∧
      (0 < e.demand → entryScale b es capEff e =
        min 4096 (4096 * grant ((es.filter (fun x => 0 < x.demand)).map Entry.share) (b.feed + n.toNat) e.share /
          e.demand.natAbs))) ∧
    ((b.regen : Int) + capEff < n - t →
      conditionOf b es capEff = .regenLimited ∧
      (0 ≤ e.demand → entryScale b es capEff e = 4096) ∧
      (e.demand < 0 → entryScale b es capEff e =
        min 4096 (4096 * grant ((es.filter (fun x => x.demand < 0)).map Entry.share) (b.regen + capEff + t.toNat) e.share /
          e.demand.natAbs))) ∧
    (t - n ≤ b.feed → n - t ≤ (b.regen : Int) + capEff →
      conditionOf b es capEff = .normal ∧ entryScale b es capEff e = 4096)) ∧
  (∀ (xs : List Share) (pav sr : Nat), sr = (xs.map (fun x => min x.d x.m)).sum →
    (pav < sr → ∀ x ∈ xs, grant xs pav x = min x.d x.m * pav / sr) ∧
    (sr ≤ pav → ∃ r : Nat → Nat, r 0 = pav - sr ∧
      ∀ k ex, ex = ((xs.filter (fun x => x.cls = k)).map (fun x => x.d - min x.d x.m)).sum →
        r (k + 1) = (if ex ≤ r k then r k - ex else 0) ∧
        ∀ x ∈ xs, x.cls = k →
          grant xs pav x = if ex ≤ r k then x.d else min x.d x.m + (x.d - min x.d x.m) * r k / ex))

/-- The grants of a review sum to no more than the power it shares, and no grant is above its demand. -/
def Obligations.GrantsFitThePower : Prop :=
  ∀ (xs : List Share) (pav : Nat), (xs.map (grant xs pav)).sum ≤ pav ∧ ∀ x ∈ xs, grant xs pav x ≤ x.d

/-! ### Current loop engine -/

/-- COMPUTATION_COMPLETE. Without a computation in flight nothing happens. In RUN or HOLD the context takes the results; a
decrement that brought A to 0 leaves PEAK_EXHAUSTED due with the state decision after it (its place is the model's, log 12).
The decision stays, returns to RUN, or leaves HOLD_ENTRY or SETPOINT_TIMEOUT due with the publication after it (log 3). The
publication hands over the on-times and replaces D and the record in RUN and HOLD; in a bridge-off state D is 0, the on-times
of the record are 0 and none are handed over, also after SETPOINT_TIMEOUT, whose record says FAULT. The record carries A before
the bound of R67 (log 11); a completion in a bridge-off state leaves the held measurement (log 20). -/
def Obligations.CompletionWritesResults : Prop :=
  (∀ (s : State) (c : Channel), s.due = [] → (s.part.ctx.get c).flight = none → exec (.computationComplete c) s = .next s) ∧
  (∀ (s : State) (c : Channel) (f : Flight) (r : Result) (x : Context) (q : Part), s.due = [] →
    (s.part.ctx.get c).flight = some f → r = compute f → x = s.part.ctx.get c →
    q = { s.part with ctx := s.part.ctx.set c { x with
      idRef := r.intake.idRef, iqRef := r.intake.iqRef, theta := r.intake.theta, dTheta := r.intake.dTheta,
      peak := r.intake.peak, stale := r.intake.stale, hold := r.intake.hold, intD := r.pi.intD, intQ := r.pi.intQ,
      flags := r.limited.flags
      lastVd := if f.sample.isSome then r.pi.vd else x.lastVd
      lastVq := if f.sample.isSome then r.pi.vq else x.lastVq
      meas := if f.sample.isSome then r.meas else x.meas
      allowance := min r.allowance x.limitsG.amax } } →
    (x.state.bridgeOn = false →
      Leads (.computationComplete c) s
        { s.part with ctx := s.part.ctx.set c { x with demand := 0, record := recordOf f x.state .zero 0, flight := none } } []) ∧
    (x.state.bridgeOn = true → r.spends = true ∧ r.allowance = 0 →
      Leads (.computationComplete c) s q [.peakExhausted c, .decide c]) ∧
    (x.state.bridgeOn = true → ¬(r.spends = true ∧ r.allowance = 0) →
      Leads (.computationComplete c) s ((Due.decide c).take q).1 ((Due.decide c).take q).2)) ∧
  (∀ (p : Part) (c : Channel) (f : Flight) (n : Intake), (p.ctx.get c).flight = some f → n = intake f →
    (p.stateOf c).bridgeOn = true →
      (f.state = .hold → n.fresh = false → f.holdG.th ≤ n.hold →
        (Due.decide c).take p = (p, [.setpointTimeout c, .publish c])) ∧
      (f.state ≠ .hold → n.fresh = false → f.holdG.ts ≤ n.stale →
        (Due.decide c).take p = (p, [.holdEntry c, .publish c])) ∧
      (f.state = .hold → n.fresh = true → (Due.decide c).take p = (Due.publish c).take
        (({ p with ctx := p.ctx.set c { p.ctx.get c with state := .run } }).sendChannel .stateEntered c (.entered .run))) ∧
      ((f.state = .hold → n.fresh = false ∧ n.hold < f.holdG.th) → (f.state ≠ .hold → n.fresh = true ∨ n.stale < f.holdG.ts) →
        (Due.decide c).take p = (Due.publish c).take p)) ∧
  (∀ (p : Part) (c : Channel) (f : Flight) (r : Result) (x : Context) (d : Drive), (p.ctx.get c).flight = some f → r = compute f →
    x = p.ctx.get c → d = p.carrier.drives.get c →
    (x.state.bridgeOn = true → (Due.publish c).take p =
      ({ p with
          ctx := p.ctx.set c { x with demand := r.demand, record := recordOf f x.state r.onTimes r.demand, flight := none }
          carrier := { p.carrier with drives := p.carrier.drives.set c { d with waiting := some r.onTimes } } }, [])) ∧
    (x.state.bridgeOn = false → (Due.publish c).take p =
      ({ p with ctx := p.ctx.set c { x with demand := 0, record := recordOf f x.state .zero 0, flight := none } }, [])) ∧
    (x.state = .hold → ∀ y, y = (p.settle [.setpointTimeout c, .publish c]).ctx.get c →
      y.state = .fault ∧ y.demand = 0 ∧ y.record = recordOf f .fault .zero 0 ∧ y.flight = none ∧ y.theta = x.theta ∧
      y.allowance = x.allowance ∧ ((p.settle [.setpointTimeout c, .publish c]).carrier.drives.get c).waiting = none) ∧
    (x.state = .run → ∀ y, y = (p.settle [.holdEntry c, .publish c]).ctx.get c →
      y = { x with state := .hold, hold := 0, demand := r.demand, record := recordOf f .hold r.onTimes r.demand, flight := none } ∧
      ((p.settle [.holdEntry c, .publish c]).carrier.drives.get c).waiting = some r.onTimes)) ∧
  (∀ (f : Flight) (st : ChState) (on : OnTimes) (d : Int), recordOf f st on d =
    { state := st, valid := f.sample.isSome, meas := (compute f).meas, idRef := shapedId f (intake f),
      iqEff := effectiveIq f (intake f), vd := (compute f).limited.vd, vq := (compute f).limited.vq,
      flags := (compute f).limited.flags, onTimes := on, demand := d, power := (compute f).power, scale := f.scale,
      allowance := (compute f).allowance, theta := (intake f).theta } ∧
    (compute f).intake = intake f ∧ (compute f).iqEff = effectiveIq f (intake f))

/-- Stage 1: a fresh setpoint is taken whole; otherwise the angle carries on and the staleness counter steps, and in HOLD both
references ramp and the hold counter steps. -/
def Obligations.SetpointIntake : Prop :=
  ∀ (f : Flight),
    (∀ x, f.setpoint = some x → x.fresh = true →
      intake f = { fresh := true, idRef := x.idRef, iqRef := x.iqRef, theta := x.theta, dTheta := x.dTheta, peak := x.peak,
                   stale := 0, hold := 0 }) ∧
    ((∀ x, f.setpoint = some x → x.fresh = false) →
      (intake f).fresh = false ∧ (intake f).theta = f.theta + BitVec.ofInt 16 f.dTheta ∧ (intake f).dTheta = f.dTheta ∧
      (intake f).peak = f.peak ∧ (intake f).stale = min 255 (f.stale + 1) ∧
      (f.state ≠ .hold → (intake f).idRef = f.idRef ∧ (intake f).iqRef = f.iqRef ∧ (intake f).hold = f.hold) ∧
      (f.state = .hold → (intake f).hold = min 65535 (f.hold + 1) ∧
        ∀ v w : Int, (v = f.idRef ∧ w = (intake f).idRef) ∨ (v = f.iqRef ∧ w = (intake f).iqRef) →
          ((f.holdG.rs : Int) < v → w = v - f.holdG.rs) ∧ (v < -(f.holdG.rs : Int) → w = v + f.holdG.rs) ∧
          (-(f.holdG.rs : Int) ≤ v → v ≤ f.holdG.rs → w = 0)))

/-- The q limit L: Ipk with peak permission and A above 0, else Icont; the q reference after polarity is clamped to +-L, and D
is formed from the shaped pair, on which the grant scale does not act. -/
def Obligations.QLimitAndDemand : Prop :=
  ∀ (f : Flight) (l : Nat) (iq : Int),
    l = (if (intake f).peak = true ∧ 0 < f.allowance then f.limitsG.ipk else f.limitsG.icont) →
    iq = (if f.reversed then clampI (-32767) 32767 (-(intake f).iqRef) else (intake f).iqRef) →
    shapedIq f (intake f) = max (-(l : Int)) (min l iq) ∧
    shapedId f (intake f) = max (-(f.limitsG.idMax : Int)) (min f.limitsG.idMax (intake f).idRef) ∧
    (compute f).demand =
      truncDiv (3 * ((compute f).limited.vd * shapedId f (intake f) + (compute f).limited.vq * shapedIq f (intake f))) 2000 ∧
    (∀ x : Nat, shapedIq { f with scale := x } (intake { f with scale := x }) = shapedIq f (intake f) ∧
      shapedId { f with scale := x } (intake { f with scale := x }) = shapedId f (intake f))

/-- The effective q reference: the shaped reference times the scale, truncated; with a scale of at most 4096 it is no larger
than the shaped reference, within Ipk, and above Icont only with peak permission and an allowance above 0; and the peak
allowance it leaves. -/
def Obligations.EffectiveReferenceWithinLimits : Prop :=
  ∀ (f : Flight), effectiveIq f (intake f) = (shapedIq f (intake f) * f.scale).tdiv 4096 ∧
    (f.scale ≤ 4096 → f.limitsG.icont ≤ f.limitsG.ipk →
      (effectiveIq f (intake f)).natAbs ≤ (shapedIq f (intake f)).natAbs ∧
      0 ≤ effectiveIq f (intake f) * shapedIq f (intake f) ∧
      (effectiveIq f (intake f)).natAbs ≤ f.limitsG.ipk ∧
      (f.limitsG.icont < (effectiveIq f (intake f)).natAbs → (intake f).peak = true ∧ 0 < f.allowance)) ∧
    (f.limitsG.icont < (effectiveIq f (intake f)).natAbs → (compute f).spends = true ∧
      (compute f).allowance = f.allowance - 1) ∧
    ((effectiveIq f (intake f)).natAbs ≤ f.limitsG.icont → (compute f).spends = false ∧
      (compute f).allowance = min (f.allowance + 1) f.limitsG.amax)

/-- The measurement of a valid sample at the angle that stage 1 left, each value clamped; the record carries it. -/
def Obligations.MeasurementOfSample : Prop :=
  ∀ (f : Flight) (ia ib a b : Int) (st : ChState) (on : OnTimes) (d : Int),
    f.sample = some (ia, ib) → a = clampI (-32767) 32767 ia →
    b = clampI (-32767) 32767 (roundDiv ((ia + 2 * ib) * 18919) 32768) →
    (compute f).meas =
      { ia := a
        ib := clampI (-32767) 32767 ib
        id := clampI (-32767) 32767 (roundDiv (a * cosQ15 (intake f).theta + b * sinQ15 (intake f).theta) 32768)
        iq := clampI (-32767) 32767 (roundDiv (-a * sinQ15 (intake f).theta + b * cosQ15 (intake f).theta) 32768) } ∧
    (recordOf f st on d).meas = (compute f).meas

/-- The PI stage. On a valid sample each axis forms its error, its proportional part and its increment; the flag that the
previous computation wrote keeps an increment in its direction out; the integrator is clamped to +-Vmax. On a dropped sample
the integrators stay and the last unlimited voltages serve, with the held measurement. -/
def Obligations.PiStage : Prop :=
  ∀ (f : Flight) (vmax : Int),
    vmax = ((max f.vdc 100 * 18919 * f.limitsG.mlim / 2 ^ 30 : Nat) : Int) →
    (f.sample = none →
      (compute f).pi = { intD := f.intD, intQ := f.intQ, vd := f.lastVd, vq := f.lastVq } ∧ (compute f).meas = f.meas) ∧
    (f.sample.isSome = true →
      ∀ (ed eq incD incQ : Int), ed = shapedId f (intake f) - (compute f).meas.id →
        eq = (compute f).iqEff - (compute f).meas.iq → incD = roundDiv (f.loopG.kiD * ed) 65536 →
        incQ = roundDiv (f.loopG.kiQ * eq) 65536 →
        (compute f).pi.intD = clampI (-vmax) vmax
          (if (f.flags.dHigh = true ∧ 0 < incD) ∨ (f.flags.dLow = true ∧ incD < 0) then f.intD else f.intD + incD) ∧
        (compute f).pi.intQ = clampI (-vmax) vmax
          (if (f.flags.qHigh = true ∧ 0 < incQ) ∨ (f.flags.qLow = true ∧ incQ < 0) then f.intQ else f.intQ + incQ) ∧
        (compute f).pi.vd = roundDiv (f.loopG.kpD * ed) 4096 + (compute f).pi.intD ∧
        (compute f).pi.vq = roundDiv (f.loopG.kpQ * eq) 4096 + (compute f).pi.intQ)

/-- The voltage limit of a computation on the unlimited voltages of its PI stage: d first, then q within the rest of the circle,
with the four flags; a value equal to its bound is not limited. The flags replace those of the context at completion and are
the ones that the next computation takes; the limited voltages are those of the record; the limited vector is no longer than
Vmax. -/
def Obligations.VoltageLimit : Prop :=
  (∀ (f : Flight) (vmax : Nat) (vd vq q : Int), vmax = max f.vdc 100 * 18919 * f.limitsG.mlim / 2 ^ 30 → vmax < 2 ^ 32 →
    vd = (compute f).pi.vd → vq = (compute f).pi.vq →
    q = (Nat.sqrt (vmax ^ 2 - (clampI (-(vmax : Int)) vmax vd).natAbs ^ 2) : Nat) →
    (compute f).limited =
      { vd := clampI (-(vmax : Int)) vmax vd
        vq := clampI (-q) q vq
        flags := { dHigh := decide ((vmax : Int) < vd), dLow := decide (vd < -(vmax : Int)), qHigh := decide (q < vq),
                   qLow := decide (vq < -q) } } ∧
    0 ≤ q ∧ q ≤ vmax ∧ ((vmax : Int) ≤ vd ∨ vd ≤ -(vmax : Int) → q = 0 ∧ (compute f).limited.vq = 0) ∧
    (compute f).limited.vd ^ 2 + (compute f).limited.vq ^ 2 ≤ (vmax : Int) ^ 2) ∧
  (∀ (x : Context) (f : Flight), (x.takeResult f).flags = (compute f).limited.flags) ∧
  (∀ (p : Part) (c : Channel) (i : Option (Int × Int)), (p.flightOf c i).flags = (p.ctx.get c).flags) ∧
  (∀ (f : Flight) (st : ChState) (on : OnTimes) (d : Int), (recordOf f st on d).vd = (compute f).limited.vd ∧
    (recordOf f st on d).vq = (compute f).limited.vq ∧ (recordOf f st on d).flags = (compute f).limited.flags)

/-- The output angle leads the angle of stage 1 by one and a half steps, rounded with halves away from zero; the stationary
voltages are taken at it; the angle that the context takes is that of stage 1. -/
def Obligations.OutputAngleAndPark : Prop :=
  (∀ n : Intake, outputAngle n = n.theta + BitVec.ofInt 16 (roundDiv (3 * n.dTheta) 2)) ∧
  (∀ n : Intake, n.dTheta = 0 → outputAngle n = n.theta) ∧
  roundDiv (3 * 3) 2 = 5 ∧ roundDiv (3 * (-3)) 2 = -5 ∧
  (∀ (theta : Word16) (vd vq alpha beta vb : Int),
    alpha = roundDiv (vd * cosQ15 theta - vq * sinQ15 theta) 32768 →
    beta = roundDiv (vd * sinQ15 theta + vq * cosQ15 theta) 32768 →
    vb = roundDiv (-16384 * alpha + 28378 * beta) 32768 → phaseVoltages theta vd vq = (alpha, vb, -alpha - vb)) ∧
  (∀ f : Flight, (compute f).onTimes =
    onTimesOf f (phaseVoltages (outputAngle (intake f)) (compute f).limited.vd (compute f).limited.vq)) ∧
  (∀ (x : Context) (f : Flight), (x.takeResult f).theta = (intake f).theta)

/-- The injection and the on-times: the phase voltages are shifted by half the sum of the largest and the smallest; an on-time
is rounded and clamped to 0..P-2W; and the power estimate comes from the limited voltages and the measured or held currents. -/
def Obligations.OnTimesAndPower : Prop :=
  (∀ (f : Flight) (va vb vc vo : Int) (u : Nat), u = max f.vdc 100 →
    vo = (max va (max vb vc) + min va (min vb vc)).tdiv 2 →
    ∀ on : Int → Int, (∀ v, on v = clampI 0 ((f.period : Int) - 2 * f.blank)
        (roundDiv (((f.period * u / 2 : Nat) : Int) + (v - vo) * f.period) u)) →
      onTimesOf f (va, vb, vc) = { a := (on va).toNat, b := (on vb).toNat, c := (on vc).toNat }) ∧
  (∀ (f : Flight) (v : Int × Int × Int), 2 * f.blank ≤ f.period →
    (onTimesOf f v).a ≤ f.period - 2 * f.blank ∧ (onTimesOf f v).b ≤ f.period - 2 * f.blank ∧
    (onTimesOf f v).c ≤ f.period - 2 * f.blank) ∧
  (∀ (f : Flight) (st : ChState) (on : OnTimes) (d : Int), (recordOf f st on d).power =
    truncDiv (3 * ((compute f).limited.vd * (compute f).meas.id + (compute f).limited.vq * (compute f).meas.iq)) 2000)

/-- The fixed function of the angle: for every angle S and C are the rounded values of 32767 times sine and cosine, and stages 3
and 7 use it. -/
def Obligations.SineTableExact : Prop :=
  (∀ theta : Word16,
    |((sinQ15 theta : Int) : ℝ) - 32767 * Real.sin (2 * Real.pi * theta.toNat / 65536)| < 1 / 2 ∧
    |((cosQ15 theta : Int) : ℝ) - 32767 * Real.cos (2 * Real.pi * theta.toNat / 65536)| < 1 / 2) ∧
  (∀ (theta : Word16) (ia ib : Int), (measure theta ia ib).iq = clampCurrent (roundDiv
    (-(clampCurrent ia) * sinQ15 theta + clampCurrent (roundDiv ((ia + 2 * ib) * 18919) 32768) * cosQ15 theta) 32768)) ∧
  (∀ (theta : Word16) (vd vq : Int),
    (phaseVoltages theta vd vq).1 = roundDiv (vd * cosQ15 theta - vq * sinQ15 theta) 32768)


/-! ### Events, causes and states -/

/-- An event offered to a queue: it coalesces into the newest entry of the same kind, channel and detail, even when the queue is
full; otherwise it is appended while fewer than 12 entries stand, and otherwise lost with the overrun flag set; the attention
line is then active. Every send offers the event to one queue with the frame mark count; an event of a channel goes to its
holder's queue, when it is held, and to that of Link S. A sound queue stays sound. -/
def Obligations.EventsCoalesceAppendOrDrop : Prop :=
  (∀ (i : LinkIf) (k : EventKind) (ch : Option Channel) (d : Detail) (stamp : Word16),
    (∀ es e, i.queue = es ++ [e] → e.kind = k → e.channel = ch → e.detail = d →
      i.offer k ch d stamp = { i with queue := es ++ [{ e with count := min 255 (e.count + 1) }], attention := true }) ∧
    ((∀ es e, i.queue = es ++ [e] → ¬(e.kind = k ∧ e.channel = ch ∧ e.detail = d)) →
      (i.queue.length < 12 →
        i.offer k ch d stamp =
          { i with queue := i.queue ++ [{ kind := k, channel := ch, detail := d, count := 1, stamp := stamp }],
                   attention := true }) ∧
      (12 ≤ i.queue.length → i.offer k ch d stamp = { i with overrun := true, attention := true })) ∧
    (i.queueSound → (i.offer k ch d stamp).queueSound)) ∧
  (∀ (p : Part) (k : EventKind) (c : Channel) (d : Detail),
    (∀ l ch, p.send l k ch d =
      { p with links := p.links.set l ((p.links.get l).offer k ch d p.carrier.frameMark) }) ∧
    (p.binding.holders.get c = none → p.sendChannel k c d = p.send .s k (some c) d) ∧
    (∀ m, p.binding.holders.get c = some m →
      p.sendChannel k c d = (p.send m.link k (some c) d).send .s k (some c) d))

/-- Leaving a state for OFF, FAULT or SAFE_OFF: from RUN and HOLD the legs, the on-times and what belongs to the run are
cleared and the quiet counter is set to Q; from CAPTURE the sums are discarded and the pending setpoint is made absent; from the
other states only the state changes; STATE_ENTERED follows. -/
def Obligations.LeavingStatesClears : Prop :=
  ∀ (p : Part) (c : Channel) (st : ChState) (x : Context) (u : Sense) (d : Drive), x = p.ctx.get c → u = p.sense.get c →
    d = p.carrier.drives.get c →
    ((x.state = .run ∨ x.state = .hold) →
      p.leaveTo c st =
        ({ p with
            carrier := { p.carrier with drives := p.carrier.drives.set c { d with
              onTimes := ⟨0, 0, 0⟩, waiting := none, legs := ⟨⟨.off, .none⟩, ⟨.off, .none⟩, ⟨.off, .none⟩⟩ } }
            ctx := p.ctx.set c { x with
              state := st, setpoint := none, idRef := 0, iqRef := 0, dTheta := 0, peak := false, intD := 0, intQ := 0,
              flags := ⟨false, false, false, false⟩, lastVd := 0, lastVq := 0, stale := 0, hold := 0 }
            sense := p.sense.set c { u with quiet := x.trackG.q, ocCount := 0, dropCount := 0 } }).sendChannel
          .stateEntered c (.entered st)) ∧
    (x.state = .capture →
      p.leaveTo c st =
        ({ p with
            ctx := p.ctx.set c { x with state := st, setpoint := none }
            sense := p.sense.set c { u with sumA := 0, sumB := 0, count := 0, dropCount := 0 } }).sendChannel
          .stateEntered c (.entered st)) ∧
    ((x.state = .off ∨ x.state = .fault ∨ x.state = .safeOff) →
      p.leaveTo c st = ({ p with ctx := p.ctx.set c { x with state := st } }).sendChannel .stateEntered c (.entered st))

/-- A cause raised on a channel: it enters the cause set, leaves the three seen sets, and FAULT_RAISED is sent; a channel in OFF,
CAPTURE, RUN or HOLD then leaves for FAULT, and PARTNER is raised on the other member of its two-member slot when that member
is in CAPTURE, RUN or HOLD. -/
def Obligations.RaiseLatchesAndFaults : Prop :=
  ∀ (p : Part) (x : Cause) (c : Channel) (q : Part),
    q = ({ p with faults :=
          { causes := p.faults.causes.set c ((p.causesOf c).put true x)
            seen := ⟨p.faults.seen.a.set c ((p.faults.seen.a.get c).put false x),
                     p.faults.seen.b.set c ((p.faults.seen.b.get c).put false x),
                     p.faults.seen.s.set c ((p.faults.seen.s.get c).put false x)⟩ } }).sendChannel .faultRaised c (.cause x) →
    ((p.stateOf c = .fault ∨ p.stateOf c = .safeOff) → p.raise x c = q) ∧
    ((p.stateOf c = .off ∨ p.stateOf c = .capture ∨ p.stateOf c = .run ∨ p.stateOf c = .hold) →
      p.bindingSound →
      ((∀ m k y z, (p.binding.maps.get m).get k = some ⟨y, some z⟩ →
          (y.ch = c → (p.stateOf z.ch).active = false) ∧ (z.ch = c → (p.stateOf y.ch).active = false)) →
        p.raise x c = q.leaveTo c .fault) ∧
      (∀ m k y z, (p.binding.maps.get m).get k = some ⟨y, some z⟩ →
        (y.ch = c → (p.stateOf z.ch).active = true → p.raise x c = (q.leaveTo c .fault).raise .partner z.ch) ∧
        (z.ch = c → (p.stateOf y.ch).active = true → p.raise x c = (q.leaveTo c .fault).raise .partner y.ch)))

/-- The lines. BFLT going active raises BRIDGE and going inactive raises nothing; TEN rising is recorded alone; TEN falling sets
the drop flag, sends TORQUE_DROP to the three queues, and takes every channel that is not in SAFE_OFF there, in ascending
channel order, with its pending setpoint absent; all six are then in SAFE_OFF with their cause sets as they stood. A line that
has its level already gives no edge (log 10). -/
def Obligations.LineEdgesAct : Prop :=
  ∀ (s : State), s.due = [] → s.part.held = false →
    (∀ c,
      (s.part.torque.bflt.get c = false →
        Leads (.bfltActive c) s
          (({ s.part with torque := { s.part.torque with bflt := s.part.torque.bflt.set c true } }).raise .bridge c) []) ∧
      (s.part.torque.bflt.get c = true → exec (.bfltActive c) s = .next s) ∧
      Leads (.bfltInactive c) s
        { s.part with torque := { s.part.torque with bflt := s.part.torque.bflt.set c false } } []) ∧
    Leads .tenRise s { s.part with torque := { s.part.torque with ten := true } } [] ∧
    (s.part.torque.ten = false → exec .tenFall s = .next s) ∧
    (s.part.torque.ten = true → ∀ q : Part,
      q = channels.foldl
        (fun q c =>
          if q.stateOf c = .safeOff then q
          else ({ q with ctx := q.ctx.set c { q.ctx.get c with setpoint := none } }).leaveTo c .safeOff)
        (((({ s.part with torque := { s.part.torque with ten := false, drop := true } }).send .a .torqueDrop none .none).send .b
          .torqueDrop none .none).send .s .torqueDrop none .none) →
      Leads .tenFall s q [] ∧
      ∀ c, q.stateOf c = .safeOff ∧ q.causesOf c = s.part.causesOf c ∧
        q.torque.withdrawn.get c = s.part.torque.withdrawn.get c)

/-! ### Frames -/

/-- Select falling: an idle interface begins a frame that shifts out the reply as it stands; inside a frame it has no effect (log
10). At the end of a frame data out has shifted one byte for each byte clocked: the reply from its first byte, cut off when the
frame is shorter, and 0x00 past its end; what it shifted is kept by the model (log 23), which takes the buffer as it stands when
no FRAME_START was given (log 8). A frame found already begun at the end of a reset is ignored until select rises, whatever
command ends it (log 8), with data out in high impedance (log 21); without ignored bytes IGNORED_FRAME_END has no effect. -/
def Obligations.FramesBeginAndIgnoredFramesEnd : Prop :=
  ∀ (s : State) (l : Link) (i : LinkIf), s.due = [] → s.part.held = false → i = s.part.links.get l →
    (i.rx = .idle →
      Leads (.frameStart l) s
        { s.part with links := s.part.links.set l { i with
            rx := .inFrame []
            shiftOut := some (i.reply.kind.code :: BitVec.ofNat 8 i.reply.payload.length :: i.reply.payload ++ [i.reply.crc]) } } []) ∧
    (i.rx ≠ .idle → exec (.frameStart l) s = .next s) ∧
    (i.rx ≠ .ignoring → exec (.ignoredFrameEnd l) s = .next s) ∧
    (i.rx ≠ .ignoring → ∀ (c : Instr) (n : Nat) (out : List Byte),
      ((∃ bytes w, c = .frameError l bytes w ∧ n = bytes.length) ∨
        ∃ k payload, requestOf c = some (l, k, payload) ∧ n = payload.length + 3) →
      out = i.shiftOut.getD (i.reply.kind.code :: BitVec.ofNat 8 i.reply.payload.length :: i.reply.payload ++ [i.reply.crc]) →
      ∃ t, exec c s = .next t ∧ (t.part.links.get l).rx = .idle ∧ (t.part.links.get l).shiftOut = none ∧
        (t.part.links.get l).lastOut.length = n ∧
        ∀ j < n, (t.part.links.get l).lastOut[j]? = some (out.getD j 0x00)) ∧
    (i.rx = .ignoring →
      ∀ c : Instr, (c = .ignoredFrameEnd l ∨ (∃ bytes w, c = .frameError l bytes w) ∨ ∃ k payload, requestOf c = some (l, k, payload)) →
        Leads c s { s.part with links := s.part.links.set l { i with rx := .idle, shiftOut := none } } [])

/-- The bytes of a frame spell a request and are read back as that request: kind, length, payload and CRC of any request command
whose payload fits, clocked whole, do what the command does (that the end of any frame is one command is log 9). -/
def Obligations.FrameBytesSpellRequests : Prop :=
  ∀ (c : Instr) (s : State) (l : Link) (k : Kind) (payload : List Byte), requestOf c = some (l, k, payload) →
    payload.length ≤ 60 →
    exec (.frameError l (k.code :: BitVec.ofNat 8 payload.length :: payload ++
      [crc8 (k.code :: BitVec.ofNat 8 payload.length :: payload)]) true) s = exec c s

/-- A frame that fails a check, in the order of the checks: LENGTH, CRC, KIND. The reply is FRAME_ERROR with the subcode, and an open
batch of the link is lost with BATCH_LOST to its own queue. No FRAME_START need come before it (log 8). -/
def Obligations.RejectedFramesReplyFrameError : Prop :=
  ∀ (s : State) (l : Link) (bytes : List Byte) (whole : Bool), s.takes l →
    ((bytes.length < 3 ∨ whole = false ∨
      ∃ kind len rest, bytes = kind :: len :: rest ∧ (60 < len.toNat ∨ rest.length ≠ len.toNat + 1)) →
      Rejects (.frameError l bytes whole) s l 1) ∧
    (∀ kind payload crc, bytes = kind :: BitVec.ofNat 8 payload.length :: payload ++ [crc] → payload.length ≤ 60 →
      whole = true →
      (crc ≠ crc8 (kind :: BitVec.ofNat 8 payload.length :: payload) → Rejects (.frameError l bytes whole) s l 2) ∧
      (crc = crc8 (kind :: BitVec.ofNat 8 payload.length :: payload) → (∀ k : Kind, k.code ≠ kind) →
        Rejects (.frameError l bytes whole) s l 3))

/-- The CRC: the register starts at 0xFF, takes each byte in and shifts eight times with 0x2F; the check succeeds exactly when the
CRC byte equals the value formed, which is when the register run over the whole frame ends at 0; replies form it the same
way; and the worked pair of bytes, whose frame a change of any single bit makes fail. -/
def Obligations.CrcOfFrames : Prop :=
  (∀ bytes : List Byte, crc8 bytes = bytes.foldl
    (fun r b => (fun x : Byte => if x.msb then (x <<< 1) ^^^ 0x2F else x <<< 1)^[8] (r ^^^ b)) 0xFF) ∧
  (∀ (bytes : List Byte) (b : Byte), crc8 (bytes ++ [b]) = 0 ↔ b = crc8 bytes) ∧
  (∀ (kind b : Byte) (payload : List Byte), payload.length ≤ 60 →
    (checkFrame (kind :: BitVec.ofNat 8 payload.length :: payload ++ [b]) true = .error .crc ↔
      b ≠ crc8 (kind :: BitVec.ofNat 8 payload.length :: payload))) ∧
  (∀ (k : ReplyKind) (payload : List Byte),
    (Reply.form k payload).crc = crc8 (k.code :: BitVec.ofNat 8 payload.length :: payload)) ∧
  ([1, 2, 3, 4, 5, 6, 7, 8].map (fun n => crcShift^[n] 0xFF) = [0xD1, 0x8D, 0x35, 0x6A, 0xD4, 0x87, 0x21, 0x42] ∧
    [1, 2, 3, 4, 5, 6, 7, 8].map (fun n => crcShift^[n] 0x42) = [0x84, 0x27, 0x4E, 0x9C, 0x17, 0x2E, 0x5C, 0xB8] ∧
    crc8 [0x00, 0x00] = 0xB8 ∧ checkFrame [0x00, 0x00, 0xB8] true = .ok (.nop, []) ∧
    ∀ (i : Fin 3) (j : Fin 8) (x : Byte), [0x00, 0x00, 0xB8][i]? = some x →
      crc8 ([0x00, 0x00, 0xB8].set i (x ^^^ (1 <<< j.val))) ≠ 0)

/-- The codes of 12.2: request kinds, reply kinds, subcodes, reasons, states, holders, budget conditions, causes and event kinds;
any other kind byte is no request kind; no channel and no detail are sent as 0xFF. The fields of replies: a field of more than
one byte goes most significant byte first, and a signed one in two's complement. -/
def Obligations.CodesOfTheTables : Prop :=
  ([Kind.nop, .linkReset, .status, .events, .read, .ack, .claim, .release, .map, .unmap, .param, .enable, .disable, .set,
    .discard, .budget, .bus, .classes, .ceiling, .timing, .slot, .withdraw, .restore, .edgeClear, .revoke].map Kind.code =
    [0x00, 0x01, 0x02, 0x03, 0x04, 0x05, 0x10, 0x11, 0x12, 0x13, 0x14, 0x15, 0x16, 0x17, 0x18, 0x20, 0x21, 0x22, 0x23, 0x24,
     0x25, 0x26, 0x27, 0x28, 0x29]) ∧
  (∀ b : Byte, kindOf b = none ↔ ∀ k : Kind, k.code ≠ b) ∧
  ([ReplyKind.done, .refused, .frameError, .empty].map ReplyKind.code = [0x80, 0x81, 0x82, 0x83]) ∧
  ([Subcode.length, .crc, .kind].map Subcode.code = [1, 2, 3]) ∧
  ([Reason.wrongLink, .badValue, .notHeld, .heldElsewhere, .slotBound, .slotUnbound, .channelActive, .paramsIncomplete,
    .budgetUnset, .busLow, .torqueWithdrawn, .faultPresent, .batchFull, .notAllOff, .lineLow].map Reason.code =
    [1, 2, 3, 4, 5, 6, 7, 8, 9, 10, 11, 12, 13, 14, 15]) ∧
  ([ChState.off, .capture, .run, .hold, .fault, .safeOff].map ChState.code = [0, 1, 2, 3, 4, 5]) ∧
  ([none, some Motion.a, some Motion.b].map holderCode = [0, 1, 2]) ∧
  ([Condition.normal, .motoringLimited, .regenLimited].map Condition.code = [0, 1, 2]) ∧
  ([Cause.bridge, .overcurrent, .busOv, .busUv, .sampleLoss, .offsetRange, .setpointTimeout, .partner].map Cause.priority =
    [1, 2, 3, 4, 5, 6, 7, 8]) ∧
  ([EventKind.faultRaised, .stateEntered, .sampleDropped, .offsetRecaptured, .budgetLimited, .budgetReleased, .peakExhausted,
    .prefixDropped, .batchLost, .claimRevoked, .torqueDrop, .chopperBlocked, .chopperRestored].map EventKind.code =
    [1, 2, 3, 4, 5, 6, 7, 8, 9, 10, 11, 12, 13]) ∧
  (channelByte none = 0xFF ∧ (∀ c : Channel, channelByte (some c) = c.val) ∧ Detail.none.code = 0xFF ∧
    (∀ x : Cause, (Detail.cause x).code = x.priority) ∧ ∀ st : ChState, (Detail.entered st).code = st.code) ∧
  ((∀ n : Nat, n < 2 ^ 8 → (put8 n).map BitVec.toNat = [n]) ∧
    (∀ n : Nat, n < 2 ^ 16 → (put16 n).map BitVec.toNat = [n / 2 ^ 8, n % 2 ^ 8]) ∧
    (∀ n : Nat, n < 2 ^ 32 →
      (put32 n).map BitVec.toNat = [n / 2 ^ 24, n / 2 ^ 16 % 2 ^ 8, n / 2 ^ 8 % 2 ^ 8, n % 2 ^ 8]) ∧
    (∀ x : Int, -2 ^ 15 ≤ x → x < 2 ^ 15 → putS16 x = put16 (if x < 0 then x + 2 ^ 16 else x).toNat) ∧
    ∀ x : Int, -2 ^ 31 ≤ x → x < 2 ^ 31 → putS32 x = put32 (if x < 0 then x + 2 ^ 32 else x).toNat)

/-! ### Requests of every link -/

/-- A request is judged by its link first and its structure second: a kind of the other set is refused with WRONG_LINK, whatever
its payload; with BAD_VALUE a payload of a wrong length (that of its group for a PARAM, no byte for a SET), one whose first byte
is a channel index, link slot or mask out of range, a PARAM of no known group, a MAP with a member channel above 5 and a CLASS
with a channel above 5 in any entry. The request may be given as a command or as the bytes of its frame, which alone can spell
an unknown group, a PARAM cut short and a SET without a flag byte (log 8 and 9). -/
def Obligations.WrongLinksAndStructuresRefused : Prop :=
  ∀ (c : Instr) (s : State) (l : Link) (k : Kind) (payload : List Byte),
    (requestOf c = some (l, k, payload) ∨
      c = .frameError l (k.code :: BitVec.ofNat 8 payload.length :: payload ++
        [crc8 (k.code :: BitVec.ofNat 8 payload.length :: payload)]) true) →
    payload.length ≤ 60 → s.takes l →
    (k.inSetOf l = false → Refuses c s l k .wrongLink) ∧
    (k.inSetOf l = true →
      (k.fitsLength payload = false → Refuses c s l k .badValue) ∧
      (∀ b rest, payload = b :: rest → k.fitsFirst l b = false → Refuses c s l k .badValue) ∧
      (∀ ch g f, k = .param → payload = ch :: g :: f → (g.toNat = 0 ∨ 6 < g.toNat) → Refuses c s l k .badValue) ∧
      (∀ (n : Nat) (b : Byte), k = .map → (n = 1 ∨ n = 3) → payload[n]? = some b → 6 ≤ b.toNat → Refuses c s l k .badValue) ∧
      (∀ (n : Nat) (b : Byte), k = .classes → payload[4 * n]? = some b → 6 ≤ b.toNat → Refuses c s l k .badValue))

/-- NOP: done with any payload of at most 60 bytes, with no effect beyond the reply; it alone of all kinds takes a payload of any
length. -/
def Obligations.NopIsDone : Prop :=
  (∀ (s : State) (l : Link) (payload : List Byte), s.takes l → payload.length ≤ 60 →
    Does (.nop l payload) s l .nop [] s.part) ∧
  ∀ k : Kind, (∀ payload : List Byte, payload.length ≤ 60 → k.fitsLength payload = true) → k = .nop

/-- LINK_RESET: the open batch and the queue of the link are cleared without an event, the overrun flag too, the attention line
becomes inactive and the reply is EMPTY; nothing else of the part changes. -/
def Obligations.LinkResetClearsLink : Prop :=
  ∀ (s : State) (l : Link), s.takes l → ∀ i : LinkIf,
    i = { rx := .idle, shiftOut := none, lastOut := s.clockedOut l (.linkReset l []), reply := .form .empty [], queue := [],
          overrun := false, attention := false } →
    (∀ m, l = m.link → exec (.linkReset l []) s = .next { s with part :=
      { s.part with links := s.part.links.set l i, batches := s.part.batches.set m none } }) ∧
    (l = .s → exec (.linkReset l []) s = .next { s with part := { s.part with links := s.part.links.set l i } }) ∧
    ∀ payload, payload ≠ [] → payload.length ≤ 60 → Refuses (.linkReset l payload) s l .linkReset .badValue

/-- STATUS: the reply carries what the part holds at that moment, slot by slot on a motion link and channel by channel on Link
S, and the link's seen set of each channel reported becomes its cause set. -/
def Obligations.StatusReportsAndRecords : Prop :=
  ∀ (s : State) (l : Link) (entry : Nat → Channel → List Byte), s.takes l →
    (∀ n c, entry n c =
      [BitVec.ofNat 8 n, BitVec.ofNat 8 (s.part.stateOf c).code,
       BitVec.ofNat 8 (causesByPriority.map (fun x => bit ((s.part.causesOf c).has x) * 2 ^ (x.priority - 1))).sum,
       BitVec.ofNat 8 (((causesByPriority.find? (fun x => (s.part.causesOf c).has x)).map Cause.priority).getD 0),
       BitVec.ofNat 8 (bit (s.part.ctx.get c).record.flags.any + bit ((s.part.ctx.get c).record.scale < 4096) * 2 +
         bit (((s.part.ctx.get c).limitsG.icont : Int) < (s.part.ctx.get c).record.iqEff.natAbs) * 4 +
         bit (!(s.part.carrier.drives.get c).valid) * 8)]) →
    (∀ m, l = m.link → Does (.status l []) s l .status
      ((s.part.binding.maps.get m).toList.flatMap (fun o => match o with
        | none => [0]
        | some e => BitVec.ofNat 8 e.members.length :: e.members.flatMap (fun x => entry (x.ch.val + bit x.reversed * 128) x.ch)) ++
       [BitVec.ofNat 8 (bit (s.part.binding.toggles.get m) + bit (s.part.links.get l).overrun * 2),
        BitVec.ofNat 8 (s.part.links.get l).queue.length])
      { s.part with faults := { s.part.faults with seen := s.part.faults.seen.set l (.ofFn
          (fun c => if c ∈ s.part.mapChannels m then s.part.causesOf c else s.part.seenOf l c)) } }) ∧
    (l = .s → Does (.status l []) s l .status
      (channels.flatMap (fun c => entry (c.val + holderCode (s.part.binding.holders.get c) * 16) c) ++
       put16 s.part.bus.vdc ++ [BitVec.ofNat 8 s.part.bus.condition.code] ++ put32 s.part.bus.heat ++
       [BitVec.ofNat 8 (bit s.part.bus.blocked + bit s.part.torque.ten * 2 + bit s.part.torque.drop * 4 +
          bit (s.part.links.get l).overrun * 8),
        BitVec.ofNat 8 (s.part.links.get l).queue.length])
      { s.part with faults := { s.part.faults with seen := s.part.faults.seen.set l s.part.faults.causes } })

/-- READ: the computation record of a channel, for the link that holds it and for Link S, and no other effect. EVENTS: up to 8 of the
oldest entries leave the queue, the overrun flag is returned and cleared, and the attention line follows. -/
def Obligations.ReadAndEventsAnswer : Prop :=
  ∀ (s : State) (l : Link), s.takes l →
    (∀ (c : Channel) (r : CompRecord), r = (s.part.ctx.get c).record →
      ((l = .s ∨ ∃ m, l = m.link ∧ s.part.binding.holders.get c = some m) →
        Does (.read l [BitVec.ofNat 8 c.val]) s l .read
          (BitVec.ofNat 8 c.val ::
           ([BitVec.ofNat 8 r.state.code,
             BitVec.ofNat 8 (bit r.valid + bit r.flags.dHigh * 2 + bit r.flags.dLow * 4 + bit r.flags.qHigh * 8 +
               bit r.flags.qLow * 16)] ++
            putS16 r.meas.ia ++ putS16 r.meas.ib ++ putS16 r.meas.id ++ putS16 r.meas.iq ++ putS16 r.idRef ++ putS16 r.iqEff ++
            putS16 r.vd ++ putS16 r.vq ++ put16 r.onTimes.a ++ put16 r.onTimes.b ++ put16 r.onTimes.c ++ putS32 r.demand ++
            putS32 r.power ++ put16 r.scale ++ put16 r.allowance ++ put16 r.theta.toNat)) s.part) ∧
      (∀ m, l = m.link → s.part.binding.holders.get c ≠ some m →
        Refuses (.read l [BitVec.ofNat 8 c.val]) s l .read .notHeld)) ∧
    (∀ i : LinkIf, i = s.part.links.get l →
      Does (.events l []) s l .events
        (BitVec.ofNat 8 (min 8 i.queue.length) :: BitVec.ofNat 8 (bit i.overrun) ::
          (i.queue.take 8).flatMap (fun e =>
            [BitVec.ofNat 8 e.kind.code, BitVec.ofNat 8 (match e.channel with
              | some c => c.val
              | none => 0xFF),
             BitVec.ofNat 8 (match e.detail with
              | .cause x => x.priority
              | .entered st => st.code
              | .none => 0xFF),
             BitVec.ofNat 8 e.count, BitVec.ofNat 8 (e.stamp.toNat / 256), BitVec.ofNat 8 e.stamp.toNat]))
        { s.part with links := s.part.links.set l { i with
            queue := i.queue.drop 8, overrun := false, attention := decide (8 < i.queue.length) } })

/-- ACK: for each channel of the slot, or of the mask on Link S, in ascending order, the causes that this link has seen leave the
cause set, BRIDGE stays while its line is active, the link's seen set is emptied, and a channel in FAULT whose set is now empty
enters OFF. On a motion link a slot that is not bound is refused with NOT_HELD. -/
def Obligations.AckClearsSeenCauses : Prop :=
  (∀ (s : State) (m : Motion) (k : LinkSlot), s.takes m.link → (s.part.binding.maps.get m).get k = none →
    Refuses (.ack m.link [BitVec.ofNat 8 k.val]) s m.link .ack .notHeld) ∧
  ∀ (s : State) (l : Link) (cs : List Channel) (payload : List Byte) (left : Part → Channel → CauseSet) (q : Part), s.takes l →
    ((∃ m k e, l = m.link ∧ payload = [BitVec.ofNat 8 k.val] ∧ (s.part.binding.maps.get m).get k = some e ∧
        cs = channels.filter (fun c => c ∈ e.chans)) ∨
      (l = .s ∧ ∃ mask : Byte, mask.toNat < 64 ∧ payload = [mask] ∧ cs = namedChannels mask)) →
    (∀ p c x, (left p c).has x =
      ((p.causesOf c).has x && (!(p.seenOf l c).has x || (decide (x = .bridge) && p.torque.bflt.get c)))) →
    q = cs.foldl (fun p c =>
      if p.stateOf c = .fault ∧ left p c = .empty then
        ({ p with
            faults := ⟨p.faults.causes.set c (left p c), p.faults.seen.set l ((p.faults.seen.get l).set c .empty)⟩
            ctx := p.ctx.set c { p.ctx.get c with state := .off } }).sendChannel .stateEntered c (.entered .off)
      else
        { p with faults := ⟨p.faults.causes.set c (left p c), p.faults.seen.set l ((p.faults.seen.get l).set c .empty)⟩ })
      s.part →
    Does (.ack l payload) s l .ack
      (BitVec.ofNat 8 cs.length :: cs.flatMap (fun c => [BitVec.ofNat 8 c.val, BitVec.ofNat 8 (q.stateOf c).code,
        BitVec.ofNat 8 (causesByPriority.map (fun x => bit ((q.causesOf c).has x) * 2 ^ (x.priority - 1))).sum])) q

/-! ### Claims and slot maps -/

/-- CLAIM: all named channels are taken by the link, or none when one is held elsewhere, with every named channel's holder in the
refusal. RELEASE: all named channels become unheld and the link's seen sets of them are emptied, unless one is not held by the
link or stands in a slot map. -/
def Obligations.ClaimAndReleaseMoveHolders : Prop :=
  ∀ (s : State) (m : Motion) (mask : Byte), s.takes m.link → mask.toNat < 64 →
    (∀ h : Six (Option Motion), h = changedAt s.part.binding.holders (namedChannels mask) (fun _ _ => some m) →
      ((∀ c ∈ namedChannels mask, s.part.binding.holders.get c = none ∨ s.part.binding.holders.get c = some m) →
        Does (.claim m.link [mask]) s m.link .claim (holdersAs h) (s.part.withHolders h)) ∧
      ((∃ c ∈ namedChannels mask, ∃ n, n ≠ m ∧ s.part.binding.holders.get c = some n) →
        exec (.claim m.link [mask]) s = .next { s with part := s.part.answered m.link (s.clockedOut m.link (.claim m.link [mask])) (.form .refused
          (0x10 :: 0x04 :: (namedChannels mask).flatMap (fun c =>
            [BitVec.ofNat 8 c.val, BitVec.ofNat 8 (holderCode (s.part.binding.holders.get c))]))) })) ∧
    (∀ h : Six (Option Motion), h = changedAt s.part.binding.holders (namedChannels mask) (fun _ _ => none) →
      ((∃ c ∈ namedChannels mask, s.part.binding.holders.get c ≠ some m) →
        Refuses (.release m.link [mask]) s m.link .release .notHeld) ∧
      ((∀ c ∈ namedChannels mask, s.part.binding.holders.get c = some m) →
        ((∃ c ∈ namedChannels mask, c ∈ s.part.mapChannels .a ++ s.part.mapChannels .b) →
          Refuses (.release m.link [mask]) s m.link .release .slotBound) ∧
        ((∀ c ∈ namedChannels mask, c ∉ s.part.mapChannels .a ++ s.part.mapChannels .b) →
          Does (.release m.link [mask]) s m.link .release (holdersAs h)
            ({ s.part with faults := { s.part.faults with seen := s.part.faults.seen.set m.link (changedAt
                (s.part.faults.seen.get m.link) (namedChannels mask) (fun _ _ => .empty)) } }.withHolders h))))

/-- MAP: the four checks in their order, then the slot is bound to the members in the order given. UNMAP: the slot is unbound and
the pending setpoints of its members are absent, unless it is not bound or a member is in CAPTURE, RUN or HOLD. -/
def Obligations.MapAndUnmapBindSlots : Prop :=
  (∀ (s : State) (m : Motion) (k : LinkSlot) (e : SlotEntry) (payload : List Byte), s.takes m.link →
    ((∃ r : Byte, e = ⟨⟨e.first.ch, decide (r ≠ 0)⟩, none⟩ ∧
        payload = [BitVec.ofNat 8 k.val, BitVec.ofNat 8 e.first.ch.val, r]) ∨
      (∃ (x y : Channel) (r t : Byte), e = ⟨⟨x, decide (r ≠ 0)⟩, some ⟨y, decide (t ≠ 0)⟩⟩ ∧
        payload = [BitVec.ofNat 8 k.val, BitVec.ofNat 8 x.val, r, BitVec.ofNat 8 y.val, t])) →
    ((s.part.binding.maps.get m).get k ≠ none → Refuses (.map m.link payload) s m.link .map .slotBound) ∧
    ((s.part.binding.maps.get m).get k = none →
      (¬e.chans.Nodup → Refuses (.map m.link payload) s m.link .map .badValue) ∧
      (e.chans.Nodup →
        ((∃ c ∈ e.chans, s.part.binding.holders.get c ≠ some m) → Refuses (.map m.link payload) s m.link .map .notHeld) ∧
        ((∀ c ∈ e.chans, s.part.binding.holders.get c = some m) →
          ((∃ c ∈ e.chans, c ∈ s.part.mapChannels .a ++ s.part.mapChannels .b) →
            Refuses (.map m.link payload) s m.link .map .slotBound) ∧
          ((∀ c ∈ e.chans, c ∉ s.part.mapChannels .a ++ s.part.mapChannels .b) →
            Does (.map m.link payload) s m.link .map
              (BitVec.ofNat 8 k.val :: e.members.flatMap (fun x => [BitVec.ofNat 8 x.ch.val, BitVec.ofNat 8 (bit x.reversed)]))
              { s.part with binding := { s.part.binding with maps := s.part.binding.maps.set m ((s.part.binding.maps.get m).set k (some e)) } }))))) ∧
  (∀ (s : State) (m : Motion) (k : LinkSlot) (payload : List Byte), s.takes m.link → payload = [BitVec.ofNat 8 k.val] →
    ((s.part.binding.maps.get m).get k = none → Refuses (.unmap m.link payload) s m.link .unmap .slotUnbound) ∧
    ∀ e, (s.part.binding.maps.get m).get k = some e →
      ((∃ c ∈ e.chans, (s.part.stateOf c).active = true) → Refuses (.unmap m.link payload) s m.link .unmap .channelActive) ∧
      ((∀ c ∈ e.chans, (s.part.stateOf c).active = false) →
        Does (.unmap m.link payload) s m.link .unmap payload
          { s.part with
            binding := { s.part.binding with maps := s.part.binding.maps.set m ((s.part.binding.maps.get m).set k none) }
            ctx := changedAt s.part.ctx e.chans (fun _ x => { x with setpoint := none }) }))

/-- REVOKE: the named channels one after another in ascending order. An unheld channel stays as it is. A held one is stopped, the
entry that names it is removed with its other member stopped and the members' pending setpoints absent, its claim is cleared
with the former holder's seen set of it, and CLAIM_REVOKED goes to the former holder and to Link S. In the end no named channel
is held or mapped. -/
def Obligations.RevokeTakesChannelsAway : Prop :=
  (∀ (s : State) (mask : Byte) (q : Part), s.takes .s → mask.toNat < 64 →
    q = (namedChannels mask).foldl (fun q c => q.revokeOne c) s.part →
    Does (.revoke .s [mask]) s .s .revoke (holdersAs q.binding.holders) q ∧
    (s.part.bindingSound → ∀ c, named mask c = true →
      q.binding.holders.get c = none ∧ c ∉ q.mapChannels .a ++ q.mapChannels .b ∧ (q.stateOf c).active = false)) ∧
  (∀ (p : Part) (c : Channel), p.binding.holders.get c = none → p.revokeOne c = p) ∧
  (∀ (p : Part) (c : Channel) (m : Motion) (q r : Part), p.bindingSound → p.binding.holders.get c = some m →
    q = (if (p.stateOf c).active then p.leaveTo c .off else p) →
    ((c ∉ p.mapChannels m ∧ r = q) ∨
     (∃ k x, (p.binding.maps.get m).get k = some ⟨x, none⟩ ∧ x.ch = c ∧
       r = { q with
         binding := { q.binding with maps := q.binding.maps.set m ((q.binding.maps.get m).set k none) }
         ctx := changedAt q.ctx [c] (fun _ x => { x with setpoint := none }) }) ∨
     (∃ k x y d u, (p.binding.maps.get m).get k = some ⟨x, some y⟩ ∧ ((x.ch = c ∧ y.ch = d) ∨ (x.ch = d ∧ y.ch = c)) ∧
       u = { q with binding := { q.binding with maps := q.binding.maps.set m ((q.binding.maps.get m).set k none) } } ∧
       ∀ v, v = (if (u.stateOf d).active then u.leaveTo d .off else u) →
         r = { v with ctx := changedAt v.ctx [c, d] (fun _ x => { x with setpoint := none }) })) →
    p.revokeOne c =
      ((({ r with faults := { r.faults with seen := r.faults.seen.set m.link ((r.faults.seen.get m.link).set c .empty) } }).withHolders
        (r.binding.holders.set c none)).send m.link .claimRevoked (some c) .none).send .s .claimRevoked (some c) .none)

/-! ### Channel parameters -/

/-- PARAM of SENSE, TRACK, LOOP, PROTECT and HOLD on the link that holds the channel: each field is clamped to its range and stored
with the group's loaded mark, and the reply carries the fields as stored with the six marks. A SENSE that narrows Ro clamps the
offsets, and is refused in CAPTURE, RUN and HOLD. A PARAM of any group for a channel that the link does not hold is refused
with NOT_HELD. The marks byte has SENSE, TRACK, LOOP, LIMITS, PROTECT and HOLD at bits 0 to 5 and nothing above them. -/
def Obligations.ParamStoresClampedGroups : Prop :=
  (∀ mk : Marks, mk.code < 2 ^ 6 ∧
    (List.range 6).map mk.code.testBit = [mk.sense, mk.track, mk.loop, mk.limits, mk.protect, mk.hold]) ∧
  (∀ (s : State) (m : Motion) (c : Channel) (i : Instr) (payload : List Byte), s.takes m.link →
    s.part.binding.holders.get c ≠ some m → requestOf i = some (m.link, .param, BitVec.ofNat 8 c.val :: payload) →
    Kind.param.fitsLength (BitVec.ofNat 8 c.val :: payload) = true → Refuses i s m.link .param .notHeld) ∧
  ∀ (s : State) (m : Motion) (c : Channel) (ch : Byte) (x : Context) (u : Sense), s.takes m.link →
    s.part.binding.holders.get c = some m → ch = BitVec.ofNat 8 c.val → x = s.part.ctx.get c → u = s.part.sense.get c →
    (∀ ga gb ro (g : SenseGroup) (mk : Marks), ga < 65536 → gb < 65536 → ro < 65536 →
      g = { gA := max 1 ga, gB := max 1 gb, ro := max 16 (min 512 ro) } → mk = { x.marks with sense := true } →
      (x.state.active = true →
        Refuses (.paramSense m.link ch (put16 ga ++ put16 gb ++ put16 ro)) s m.link .param .channelActive) ∧
      (x.state.active = false →
        Does (.paramSense m.link ch (put16 ga ++ put16 gb ++ put16 ro)) s m.link .param
          ([ch, 1] ++ put16 g.gA ++ put16 g.gB ++ put16 g.ro ++ put8 mk.code)
          { s.part with
            ctx := s.part.ctx.set c { x with senseG := g, marks := mk }
            sense := s.part.sense.set c { u with
              offA := if g.ro < x.senseG.ro then clampI (2048 - g.ro) (2048 + g.ro) u.offA else u.offA
              offB := if g.ro < x.senseG.ro then clampI (2048 - g.ro) (2048 + g.ro) u.offB else u.offB } })) ∧
    (∀ wt bt nx q (g : TrackGroup) (mk : Marks), wt < 256 → bt < 65536 → nx < 256 → q < 256 →
      g = { wt := min 63 wt, bt := max 1 (min 4095 bt), nx := max 1 nx, q := q } → mk = { x.marks with track := true } →
      Does (.paramTrack m.link ch (put8 wt ++ put16 bt ++ put8 nx ++ put8 q)) s m.link .param
        ([ch, 2] ++ put8 g.wt ++ put16 g.bt ++ put8 g.nx ++ put8 g.q ++ put8 mk.code)
        { s.part with ctx := s.part.ctx.set c { x with trackG := g, marks := mk } }) ∧
    (∀ kpd kid kpq kiq (g : LoopGroup) (mk : Marks), kpd < 65536 → kid < 65536 → kpq < 65536 → kiq < 65536 →
      g = { kpD := kpd, kiD := kid, kpQ := kpq, kiQ := kiq } → mk = { x.marks with loop := true } →
      Does (.paramLoop m.link ch (put16 kpd ++ put16 kid ++ put16 kpq ++ put16 kiq)) s m.link .param
        ([ch, 3] ++ put16 kpd ++ put16 kid ++ put16 kpq ++ put16 kiq ++ put8 mk.code)
        { s.part with ctx := s.part.ctx.set c { x with loopG := g, marks := mk } }) ∧
    (∀ itrip ih dt dl (g : ProtectGroup) (mk : Marks), itrip < 65536 → ih < 65536 → dt < 256 → dl < 256 →
      g = { itrip := min 32767 itrip, ih := min (min 32767 itrip) ih, dt := max 1 (min 15 dt), dl := max 1 (min 15 dl) } →
      mk = { x.marks with protect := true } →
      Does (.paramProtect m.link ch (put16 itrip ++ put16 ih ++ put8 dt ++ put8 dl)) s m.link .param
        ([ch, 5] ++ put16 g.itrip ++ put16 g.ih ++ put8 g.dt ++ put8 g.dl ++ put8 mk.code)
        { s.part with ctx := s.part.ctx.set c { x with protectG := g, marks := mk } }) ∧
    (∀ ts rs th (g : HoldGroup) (mk : Marks), ts < 256 → rs < 65536 → th < 65536 →
      g = { ts := max 1 ts, rs := max 1 (min 32767 rs), th := max 1 th } → mk = { x.marks with hold := true } →
      Does (.paramHold m.link ch (put8 ts ++ put16 rs ++ put16 th)) s m.link .param
        ([ch, 6] ++ put8 g.ts ++ put16 g.rs ++ put16 g.th ++ put8 mk.code)
        { s.part with ctx := s.part.ctx.set c { x with holdG := g, marks := mk } })

/-- LIMITS and CEILING: the fields are clamped to their ranges, and then the clamp order ties Icont, Ipk and Id_max to the ceilings
and A to Amax, at every LIMITS and at every CEILING. -/
def Obligations.LimitsAndCeilingsAreTied : Prop :=
  ∀ (s : State) (c : Channel) (ch : Byte) (x : Context), ch = BitVec.ofNat 8 c.val → x = s.part.ctx.get c →
    ∀ (tied : Nat → Nat → LimitsGroup → LimitsGroup),
      (∀ ic pc g, tied ic pc g = { g with
        icont := min g.icont ic
        ipk := min (max g.ipk (min g.icont ic)) pc
        idMax := min g.idMax (min (max g.ipk (min g.icont ic)) pc) }) →
      (∀ (m : Motion) (a b d e f : Nat) (g : LimitsGroup) (mk : Marks), s.takes m.link →
        s.part.binding.holders.get c = some m →
        a < 65536 → b < 65536 → d < 65536 → e < 65536 → f < 65536 →
        g = tied x.icontCeil x.ipkCeil
          { icont := min 32767 a, ipk := min 32767 b, idMax := min 32767 d, mlim := max 16384 (min 32767 e), amax := f } →
        mk = { x.marks with limits := true } →
        Does (.paramLimits m.link ch (put16 a ++ put16 b ++ put16 d ++ put16 e ++ put16 f)) s m.link .param
          ([ch, 4] ++ put16 g.icont ++ put16 g.ipk ++ put16 g.idMax ++ put16 g.mlim ++ put16 g.amax ++ put8 mk.code ++
            put16 (min x.allowance f) ++ put16 x.icontCeil ++ put16 x.ipkCeil)
          { s.part with ctx := s.part.ctx.set c { x with limitsG := g, marks := mk, allowance := min x.allowance f } }) ∧
      (∀ (a b ic pc : Nat) (g : LimitsGroup), s.takes .s → a < 65536 → b < 65536 → pc = min 32767 b → ic = min pc (min 32767 a) →
        g = tied ic pc x.limitsG →
        Does (.ceiling .s (ch :: put16 a ++ put16 b)) s .s .ceiling
          (ch :: put16 ic ++ put16 pc ++ put16 g.icont ++ put16 g.ipk ++ put16 g.idMax ++ put16 g.mlim ++ put16 g.amax ++
            put16 (min x.allowance g.amax))
          { s.part with ctx := s.part.ctx.set c { x with
            icontCeil := ic, ipkCeil := pc, limitsG := g, allowance := min x.allowance g.amax } })

/-! ### Enabling and disabling -/

/-- ENABLE: the five checks in their order, then all members of the slot enter CAPTURE together, in ascending channel order, with
what the entry clears; the peak allowance and the offsets stay. -/
def Obligations.EnableChecksThenCaptures : Prop :=
  ∀ (s : State) (m : Motion) (k : LinkSlot) (i : Instr), s.takes m.link → i = .enable m.link [BitVec.ofNat 8 k.val] →
    ((s.part.binding.maps.get m).get k = none → Refuses i s m.link .enable .slotUnbound) ∧
    ∀ e, (s.part.binding.maps.get m).get k = some e →
      ((∃ c ∈ e.chans, (s.part.stateOf c).active = true) → Refuses i s m.link .enable .channelActive) ∧
      ((∀ c ∈ e.chans, (s.part.stateOf c).active = false) →
        ((∃ c ∈ e.chans, s.part.stateOf c = .fault) → Refuses i s m.link .enable .faultPresent) ∧
        ((∀ c ∈ e.chans, s.part.stateOf c ≠ .fault) → (∃ c ∈ e.chans, s.part.stateOf c = .safeOff) →
          Refuses i s m.link .enable .torqueWithdrawn)) ∧
      ((∀ c ∈ e.chans, s.part.stateOf c = .off) →
        ∀ loaded : Bool, (loaded = true ↔ ∀ c ∈ e.chans, (s.part.ctx.get c).marks.sense = true ∧
            (s.part.ctx.get c).marks.loop = true ∧ (s.part.ctx.get c).marks.limits = true ∧
            (s.part.ctx.get c).marks.protect = true ∧ (s.part.ctx.get c).marks.hold = true) →
          (loaded = false → Refuses i s m.link .enable .paramsIncomplete) ∧
          (loaded = true → s.part.bus.budgetSet = false → Refuses i s m.link .enable .budgetUnset) ∧
          (loaded = true → s.part.bus.budgetSet = true → s.part.bus.vdc < s.part.bus.uv + s.part.bus.uvh →
            Refuses i s m.link .enable .busLow) ∧
          (loaded = true → s.part.bus.budgetSet = true → s.part.bus.uv + s.part.bus.uvh ≤ s.part.bus.vdc →
            Does i s m.link .enable []
              ((channels.filter (fun c => c ∈ e.chans)).foldl (fun q c =>
                ({ q with
                  carrier := { q.carrier with drives := q.carrier.drives.set c { q.carrier.drives.get c with
                    onTimes := ⟨0, 0, 0⟩, waiting := none } }
                  ctx := q.ctx.set c { q.ctx.get c with
                    state := .capture, setpoint := none, idRef := 0, iqRef := 0, theta := 0, dTheta := 0, peak := false,
                    intD := 0, intQ := 0, flags := ⟨false, false, false, false⟩, lastVd := 0, lastVq := 0,
                    meas := ⟨0, 0, 0, 0⟩, stale := 0, hold := 0, demand := 0 }
                  sense := q.sense.set c { q.sense.get c with
                    sumA := 0, sumB := 0, count := 0, bucketA := 0, bucketB := 0, excursion := 0, dropCount := 0 } }).sendChannel
                  .stateEntered c (.entered .capture)) s.part)))

/-- DISABLE: the members in CAPTURE, RUN or HOLD leave for OFF, in ascending channel order, and the others stay; no PARTNER is
raised, and the claims and the maps stay. -/
def Obligations.DisableStopsMembers : Prop :=
  ∀ (s : State) (m : Motion) (k : LinkSlot) (i : Instr), s.takes m.link → i = .disable m.link [BitVec.ofNat 8 k.val] →
    ((s.part.binding.maps.get m).get k = none → Refuses i s m.link .disable .slotUnbound) ∧
    ∀ e q, (s.part.binding.maps.get m).get k = some e →
      q = (channels.filter (fun c => c ∈ e.chans)).foldl
        (fun q c => if (q.stateOf c).active then q.leaveTo c .off else q) s.part →
      Does i s m.link .disable [] q ∧ q.faults = s.part.faults ∧ q.binding = s.part.binding ∧
        (∀ c ∈ e.chans, q.stateOf c = if (s.part.stateOf c).active then .off else s.part.stateOf c) ∧
        ∀ c, c ∉ e.chans → q.stateOf c = s.part.stateOf c

/-! ### Setpoint batches -/

/-- SET with END clear and DISCARD. Bytes that are no whole records are refused; the first SET record whose slot is unbound, or whose
angle blocks are not as many as the members, decides the refusal; more than 8 records lose the batch with BATCH_LOST; otherwise
the records, each reference clamped to +-32767, are appended in order. DISCARD makes the batch absent without an event. -/
def Obligations.SetAppendsRecords : Prop :=
  (∀ (s : State) (m : Motion) (i : Instr) (bytes : List Byte) (flag : BitVec 7), s.takes m.link → bytes.length ≤ 59 →
    (i = .set m.link flag bytes ∨ i = .setEnd m.link flag bytes) →
    ((¬∃ rs : List Record, (∀ r ∈ rs, r.fits) ∧ bytes = rs.flatMap Record.wire) → Refuses i s m.link .set .badValue) ∧
    ∀ (rs : List Record), (∀ r ∈ rs, r.fits) → bytes = rs.flatMap Record.wire →
      (∀ before k a b blocks after, rs = before ++ .set k a b blocks :: after →
        (∀ r ∈ before, r.passes (s.part.binding.maps.get m)) →
        ((s.part.binding.maps.get m).get k = none → Refuses i s m.link .set .slotUnbound) ∧
        (∀ e, (s.part.binding.maps.get m).get k = some e → blocks.length ≠ e.members.length →
          Refuses i s m.link .set .badValue)) ∧
      ((∀ r ∈ rs, r.passes (s.part.binding.maps.get m)) → 8 < ((s.part.batches.get m).getD []).length + rs.length →
        ∀ q : Part, q = ({ s.part with batches := s.part.batches.set m none }).send m.link .batchLost none .none →
          exec i s = .next { s with part := q.answered m.link (s.clockedOut m.link i) (refusedReply .set .batchFull) })) ∧
  (∀ (s : State) (m : Motion) (rs all : List Record) (flag : BitVec 7), s.takes m.link → (∀ r ∈ rs, r.fits) →
    (rs.flatMap Record.wire).length ≤ 59 → (∀ r ∈ rs, r.passes (s.part.binding.maps.get m)) →
    all = (s.part.batches.get m).getD [] ++ rs.map Record.stored → all.length ≤ 8 →
    Does (.set m.link flag (rs.flatMap Record.wire)) s m.link .set
      [0, BitVec.ofNat 8 all.length, BitVec.ofNat 8 (bit (s.part.binding.toggles.get m)), 0]
      { s.part with batches := s.part.batches.set m (if all = [] then none else some all) }) ∧
  (∀ (s : State) (m : Motion), s.takes m.link →
    Does (.discard m.link []) s m.link .discard [BitVec.ofNat 8 ((s.part.batches.get m).getD []).length]
      { s.part with batches := s.part.batches.set m none })

/-- SET with END set: the records are appended and the whole batch is delivered. A SET record directly after a PEAK record is
marked, and each PEAK record that no SET record follows is dropped with PREFIX_DROPPED; each channel in CAPTURE, RUN or HOLD that
matching records reach takes the setpoint of the last of them, fresh; the batch is then absent and the apply toggle has flipped.
The reply counts each channel reached once. -/
def Obligations.SetEndDeliversBatch : Prop :=
  ∀ (s : State) (m : Motion) (rs all : List Record) (flag : BitVec 7) (map : SlotMap) (marked : List (Record × Bool))
    (dropped : Nat) (taken : Channel → Option Setpoint) (p : Part), s.takes m.link → s.part.bindingSound →
    (∀ r ∈ rs, r.fits) → (rs.flatMap Record.wire).length ≤ 59 → map = s.part.binding.maps.get m →
    (∀ r ∈ rs, r.passes map) →
    all = (s.part.batches.get m).getD [] ++ rs.map Record.stored → all.length ≤ 8 →
    marked = (List.range all.length).filterMap (fun n => match all.drop n with
      | .set k i q b :: _ => some (.set k i q b, decide (0 < n ∧ (all.drop (n - 1)).head? = some .peak))
      | _ => none) →
    dropped = ((List.range all.length).filter (fun n => match all.drop n with
      | .peak :: .set _ _ _ _ :: _ => false
      | .peak :: _ => true
      | _ => false)).length →
    (∀ c, taken c = if (s.part.stateOf c).active then (marked.filterMap (setpointFor map c)).getLast? else none) →
    p = (fun q => q.send m.link .prefixDropped none .none)^[dropped] s.part →
    Does (.setEnd m.link flag (rs.flatMap Record.wire)) s m.link .set
      [1, 0, BitVec.ofNat 8 (bit (!s.part.binding.toggles.get m)),
       BitVec.ofNat 8 (channels.filter (fun c => (taken c).isSome)).length]
      { p with
        ctx := changedAt p.ctx channels (fun c x => match taken c with
          | some y => { x with setpoint := some y }
          | none => x)
        batches := p.batches.set m none
        binding := { p.binding with toggles := p.binding.toggles.set m (!p.binding.toggles.get m) } }

/-! ### Settings of Link S -/

/-- TIMING and SLOT: a change of P waits for the frame mark and is refused while a channel is active; W and N act at once and the
SYNC count is 0; a SLOT swaps two channels in the table that will stand, which stays one to one. -/
def Obligations.TimingAndSlotWaitForFrameMark : Prop :=
  (∀ (s : State) (p w n P W N : Nat) (payload : List Byte), s.takes .s → p < 65536 → w < 65536 → n < 256 →
    payload = put16 p ++ put16 w ++ put8 n → P = max 2400 (min 24000 (p / 12 * 12)) → W = min 600 w → N = max 1 (min 16 n) →
    ((P ≠ s.part.carrier.pendingP.getD s.part.carrier.period ∧ ∃ c, (s.part.stateOf c).active = true) →
      Refuses (.timing .s payload) s .s .timing .notAllOff) ∧
    ((P = s.part.carrier.pendingP.getD s.part.carrier.period ∨ ∀ c, (s.part.stateOf c).active = false) →
      Does (.timing .s payload) s .s .timing (put16 P ++ put16 W ++ put8 N)
        { s.part with carrier := { s.part.carrier with
          pendingP := if P = s.part.carrier.pendingP.getD s.part.carrier.period then s.part.carrier.pendingP else some P
          blank := W, divider := N, syncCount := 0 } })) ∧
  (∀ (s : State) (c : Channel) (kb : Byte) (j k : CarrierSlot) (t t' : Six Channel), s.takes .s →
    t = s.part.carrier.pendingTable.getD s.part.carrier.table → tableSound t → k.val = min kb.toNat 5 → t.get j = c →
    t' = (t.set j (t.get k)).set k c →
    (((s.part.stateOf c).active = true ∨ (s.part.stateOf (t.get k)).active = true) →
      Refuses (.slot .s [BitVec.ofNat 8 c.val, kb]) s .s .slot .channelActive) ∧
    (((s.part.stateOf c).active = false ∧ (s.part.stateOf (t.get k)).active = false) →
      Does (.slot .s [BitVec.ofNat 8 c.val, kb]) s .s .slot (t'.toList.map (fun (x : Channel) => BitVec.ofNat 8 x.val))
        { s.part with carrier := { s.part.carrier with pendingTable := some t' } } ∧
      tableSound t'))

/-- BUS, BUDGET and CLASS store their clamped fields and answer them as stored; BUDGET sets the budget-set mark; a CLASS that
names a channel twice is refused. Vdc, the UV debounce count, the heat and the blocked flag keep their values. -/
def Obligations.BusBudgetClassStoreFields : Prop :=
  (∀ (s : State) (gv ov uv uvh nuv : Nat), s.takes .s → gv < 65536 → ov < 65536 → uv < 65536 → uvh < 65536 → nuv < 256 →
    Does (.bus .s (put16 gv ++ put16 ov ++ put16 uv ++ put16 uvh ++ put8 nuv)) s .s .bus
      (put16 gv ++ put16 (min 9000 ov) ++ put16 (min 9000 uv) ++ put16 (min 1000 uvh) ++ put8 (max 1 (min 15 nuv)))
      { s.part with bus := { s.part.bus with
        gv := gv, ov := min 9000 ov, uv := min 9000 uv, uvh := min 1000 uvh, nuv := max 1 (min 15 nuv) } }) ∧
  (∀ (s : State) (f r c k h : Nat), s.takes .s → f < 2 ^ 32 → r < 2 ^ 32 → c < 2 ^ 32 → k < 2 ^ 32 → h < 2 ^ 32 →
    Does (.budget .s (put32 f ++ put32 r ++ put32 c ++ put32 k ++ put32 h)) s .s .budget
      (put32 (min 400000 f) ++ put32 (min 400000 r) ++ put32 (min 200000 c) ++ put32 (min 200000 k) ++
        put32 (min 2147483648 h))
      { s.part with bus := { s.part.bus with
        feed := min 400000 f, regen := min 400000 r, cap := min 200000 c, cool := min 200000 k, hmax := min 2147483648 h,
        budgetSet := true } }) ∧
  (∀ (s : State) (es : List (Channel × Nat × Nat)) (payload : List Byte) (b : Bus), s.takes .s → 1 ≤ es.length → es.length ≤ 6 →
    (∀ e ∈ es, e.2.1 < 256 ∧ e.2.2 < 65536) → payload = es.flatMap (fun e => put8 e.1.val ++ put8 e.2.1 ++ put16 e.2.2) →
    b = { s.part.bus with
      cls := .ofFn (fun c => ((es.find? (fun e => e.1 = c)).map (fun e => min 3 e.2.1)).getD (s.part.bus.cls.get c))
      reserve := .ofFn (fun c => ((es.find? (fun e => e.1 = c)).map (fun e => e.2.2)).getD (s.part.bus.reserve.get c)) } →
    (¬(es.map (fun e => e.1)).Nodup → Refuses (.classes .s payload) s .s .classes .badValue) ∧
    ((es.map (fun e => e.1)).Nodup →
      Does (.classes .s payload) s .s .classes (channels.flatMap (fun c => put8 (b.cls.get c) ++ put16 (b.reserve.get c)))
        { s.part with bus := b }))

/-! ### Torque withdrawal -/

/-- WITHDRAW, RESTORE and EDGE_CLEAR. WITHDRAW sets the flags of the named channels, takes them to SAFE_OFF and then judges the
partner rule for those that entered it, in ascending order of those channels (the order in which one WITHDRAW raises PARTNER on
several partners is the model's choice, log 19); a channel in no slot or in a one-member slot has no partner. RESTORE clears the flags and EDGE_CLEAR the drop flag, unless TEN is low; a channel in
SAFE_OFF that they judge leaves when TEN is high and neither the drop flag nor its withdrawn flag is set, for FAULT with a cause
and for OFF without. The reply gives the withdrawn flags, the drop flag and the channels in SAFE_OFF. -/
def Obligations.TorqueRequestsWithdrawAndRestore : Prop :=
  ∀ (s : State) (mask : Byte) (answer : Part → List Byte) (judge : Part → Channel → Part), s.takes .s → mask.toNat < 64 →
    (∀ q, answer q =
      [BitVec.ofNat 8 (channels.map (fun c => bit (q.torque.withdrawn.get c) * 2 ^ c.val)).sum,
       BitVec.ofNat 8 (bit q.torque.drop),
       BitVec.ofNat 8 (channels.map (fun c => bit (q.stateOf c = .safeOff) * 2 ^ c.val)).sum]) →
    (∀ q c, judge q c =
      if q.stateOf c = .safeOff ∧ q.torque.ten = true ∧ q.torque.drop = false ∧ q.torque.withdrawn.get c = false then
        ({ q with ctx := q.ctx.set c { q.ctx.get c with
          state := if q.causesOf c = CauseSet.empty then .off else .fault } }).sendChannel .stateEntered c
            (.entered (if q.causesOf c = CauseSet.empty then .off else .fault))
      else q) →
    (∀ q,
      q = ((namedChannels mask).filter (fun c => s.part.stateOf c ≠ .safeOff)).foldl (fun q c => q.partnerRule c)
        ((namedChannels mask).foldl
          (fun q c =>
            if q.stateOf c = .safeOff then q
            else ({ q with ctx := q.ctx.set c { q.ctx.get c with setpoint := none } }).leaveTo c .safeOff)
          { s.part with torque := { s.part.torque with withdrawn := changedAt s.part.torque.withdrawn (namedChannels mask) (fun _ _ => true) } }) →
      Does (.withdraw .s [mask]) s .s .withdraw (answer q) q) ∧
    (∀ (q : Part) (c : Channel) (m : Motion) (k : LinkSlot) (y z : Member), q.bindingSound →
      (q.binding.maps.get m).get k = some ⟨y, some z⟩ → (q.stateOf c).active = false →
      (y.ch = c → q.partnerRule c = if (q.stateOf z.ch).active then q.raise .partner z.ch else q) ∧
      (z.ch = c → q.partnerRule c = if (q.stateOf y.ch).active then q.raise .partner y.ch else q)) ∧
    (∀ (q : Part) (c : Channel),
      (∀ m k y z, (q.binding.maps.get m).get k = some ⟨y, some z⟩ → y.ch ≠ c ∧ z.ch ≠ c) → q.partnerRule c = q) ∧
    (∀ q,
      q = (namedChannels mask).foldl judge
        { s.part with torque := { s.part.torque with withdrawn := changedAt s.part.torque.withdrawn (namedChannels mask) (fun _ _ => false) } } →
      Does (.restore .s [mask]) s .s .restore (answer q) q) ∧
    (s.part.torque.ten = false → Refuses (.edgeClear .s []) s .s .edgeClear .lineLow) ∧
    (s.part.torque.ten = true → ∀ q,
      q = channels.foldl judge { s.part with torque := { s.part.torque with drop := false } } →
      Does (.edgeClear .s []) s .s .edgeClear (answer q) q)

/-! ### What every step keeps -/

/-- The machine right after reset, and the part in a full reset, have the properties that every step keeps. The machine right after
reset is the model's choice of a reset that ended with TEN high and no BFLT line active (log 6). -/
def Obligations.ResetHasTheProperties : Prop :=
  ∀ p : Part, p = State.reset.part ∨ p = .afterReset true →
    p.bridgeOffIsOff ∧ p.queuesSound ∧ p.repliesAndBatchesSound ∧ p.limitsOrdered ∧ p.settingsSound ∧ p.bindingSound ∧
    p.causesSound ∧ p.torqueSound

/-- The legs of a channel that is not in RUN or HOLD stay off, with on-times of 0 and none waiting, in every step; and a channel in
OFF, FAULT or SAFE_OFF has no pending setpoint. -/
def Obligations.BridgeOffStaysOff : Prop :=
  ∀ s t : State, s.part.bridgeOffIsOff → step s = .next t → t.part.bridgeOffIsOff

/-- The queues stay within 12 entries with counts of 1 to 255 and an attention line that follows them; replies stay within 60
bytes with their CRC; an open batch stays within 1 to 8 records. -/
def Obligations.LinksStaySound : Prop :=
  (∀ s t : State, s.part.queuesSound → step s = .next t → t.part.queuesSound) ∧
  (∀ s t : State, s.part.repliesAndBatchesSound → step s = .next t → t.part.repliesAndBatchesSound)

/-- The limits of every channel stay in their order against the ceilings; the carrier's settings, the slot tables, the grant scales
and the offsets stay in their ranges. -/
def Obligations.SettingsStayInRange : Prop :=
  (∀ s t : State, s.part.limitsOrdered → step s = .next t → t.part.limitsOrdered) ∧
  (∀ s t : State, s.part.settingsSound → step s = .next t → t.part.settingsSound)

/-- A channel stays in at most one slot-map entry of the whole part, in the map of the link that holds it; a channel in CAPTURE, RUN
or HOLD is mapped. -/
def Obligations.BindingStaysSound : Prop :=
  ∀ s t : State, s.part.bindingSound → step s = .next t → t.part.bindingSound

/-- A channel in FAULT keeps at least one cause, and a channel with a cause stays in FAULT or SAFE_OFF. While TEN is low the drop
flag stays set, and a channel is in SAFE_OFF exactly while the drop flag or its withdrawn flag is set. -/
def Obligations.StatesFollowCausesAndTorqueFlags : Prop :=
  (∀ s t : State, s.part.causesSound → step s = .next t → t.part.causesSound) ∧
  (∀ s t : State, s.part.torqueSound → step s = .next t → t.part.torqueSound)
end

