-- ==== Sys2Proof/Laws/State.lean ====
section
/-! SUPPORT. Reading an item of a collection after one of its items is replaced, and reading each block of the part after one
item of one block is changed: one lemma for each reading and each update. -/

namespace Sys2Proof

/-! ### Collections -/

@[simp] theorem Six.get_set_same {α : Type} (v : Six α) (i : Fin 6) (x : α) : (v.set i x).get i = x := by
  fin_cases i <;> rfl

theorem Six.get_set_ne {α : Type} (v : Six α) {i j : Fin 6} (x : α) (h : i ≠ j) : (v.set i x).get j = v.get j := by
  fin_cases i <;> fin_cases j <;> first | rfl | exact absurd rfl h

theorem Six.get_set {α : Type} (v : Six α) (i j : Fin 6) (x : α) : (v.set i x).get j = if i = j then x else v.get j := by
  split
  · next h => subst h; simp
  · next h => exact Six.get_set_ne v x h

@[simp] theorem Six.set_get {α : Type} (v : Six α) (i : Fin 6) : v.set i (v.get i) = v := by
  fin_cases i <;> rfl

@[simp] theorem Six.set_set {α : Type} (v : Six α) (i : Fin 6) (x y : α) : (v.set i x).set i y = v.set i y := by
  fin_cases i <;> rfl

@[simp] theorem Six.get_all {α : Type} (x : α) (i : Fin 6) : (Six.all x).get i = x := by
  fin_cases i <;> rfl

@[simp] theorem Six.get_ofFn {α : Type} (f : Fin 6 → α) (i : Fin 6) : (Six.ofFn f).get i = f i := by
  fin_cases i <;> rfl

theorem Six.ext_get {α : Type} {v w : Six α} (h : ∀ i, v.get i = w.get i) : v = w := by
  cases v; cases w
  have h0 := h 0; have h1 := h 1; have h2 := h 2; have h3 := h 3; have h4 := h 4; have h5 := h 5
  simp [Six.get] at h0 h1 h2 h3 h4 h5
  subst h0 h1 h2 h3 h4 h5; rfl

@[simp] theorem Four.get_set_same {α : Type} (v : Four α) (i : Fin 4) (x : α) : (v.set i x).get i = x := by
  fin_cases i <;> rfl

theorem Four.get_set_ne {α : Type} (v : Four α) {i j : Fin 4} (x : α) (h : i ≠ j) : (v.set i x).get j = v.get j := by
  fin_cases i <;> fin_cases j <;> first | rfl | exact absurd rfl h

@[simp] theorem Four.set_set {α : Type} (v : Four α) (i : Fin 4) (x y : α) : (v.set i x).set i y = v.set i y := by
  fin_cases i <;> rfl

@[simp] theorem Four.get_all {α : Type} (x : α) (i : Fin 4) : (Four.all x).get i = x := by
  fin_cases i <;> rfl

@[simp] theorem Three.get_set_same {α : Type} (v : Three α) (l : Link) (x : α) : (v.set l x).get l = x := by
  cases l <;> rfl

theorem Three.get_set_ne {α : Type} (v : Three α) {l k : Link} (x : α) (h : l ≠ k) : (v.set l x).get k = v.get k := by
  cases l <;> cases k <;> first | rfl | exact absurd rfl h

@[simp] theorem Three.set_get {α : Type} (v : Three α) (l : Link) : v.set l (v.get l) = v := by
  cases l <;> rfl

@[simp] theorem Three.set_set {α : Type} (v : Three α) (l : Link) (x y : α) : (v.set l x).set l y = v.set l y := by
  cases l <;> rfl

@[simp] theorem Three.get_all {α : Type} (x : α) (l : Link) : (Three.all x).get l = x := by
  cases l <;> rfl

@[simp] theorem Two.get_set_same {α : Type} (v : Two α) (m : Motion) (x : α) : (v.set m x).get m = x := by
  cases m <;> rfl

theorem Two.get_set_ne {α : Type} (v : Two α) {m n : Motion} (x : α) (h : m ≠ n) : (v.set m x).get n = v.get n := by
  cases m <;> cases n <;> first | rfl | exact absurd rfl h

@[simp] theorem Two.set_set {α : Type} (v : Two α) (m : Motion) (x y : α) : (v.set m x).set m y = v.set m y := by
  cases m <;> rfl

@[simp] theorem Two.get_all {α : Type} (x : α) (m : Motion) : (Two.all x).get m = x := by
  cases m <;> rfl

@[simp] theorem Motion.link_motion (m : Motion) : m.link.motion = some m := by
  cases m <;> rfl

theorem mem_channels (c : Channel) : c ∈ channels := by
  fin_cases c <;> decide

namespace Machine

/-! ### One item of one block changed: the other blocks -/

@[simp] theorem Part.modCtx_held (p : Part) (c : Channel) (f : Context → Context) : (p.modCtx c f).held = p.held := rfl
@[simp] theorem Part.modCtx_links (p : Part) (c : Channel) (f : Context → Context) : (p.modCtx c f).links = p.links := rfl
@[simp] theorem Part.modCtx_batches (p : Part) (c : Channel) (f : Context → Context) : (p.modCtx c f).batches = p.batches := rfl
@[simp] theorem Part.modCtx_binding (p : Part) (c : Channel) (f : Context → Context) : (p.modCtx c f).binding = p.binding := rfl
@[simp] theorem Part.modCtx_carrier (p : Part) (c : Channel) (f : Context → Context) : (p.modCtx c f).carrier = p.carrier := rfl
@[simp] theorem Part.modCtx_sense (p : Part) (c : Channel) (f : Context → Context) : (p.modCtx c f).sense = p.sense := rfl
@[simp] theorem Part.modCtx_bus (p : Part) (c : Channel) (f : Context → Context) : (p.modCtx c f).bus = p.bus := rfl
@[simp] theorem Part.modCtx_faults (p : Part) (c : Channel) (f : Context → Context) : (p.modCtx c f).faults = p.faults := rfl
@[simp] theorem Part.modCtx_torque (p : Part) (c : Channel) (f : Context → Context) : (p.modCtx c f).torque = p.torque := rfl
@[simp] theorem Part.modCtx_ctx (p : Part) (c : Channel) (f : Context → Context) :
    (p.modCtx c f).ctx = p.ctx.set c (f (p.ctx.get c)) := rfl

@[simp] theorem Part.modSense_held (p : Part) (c : Channel) (f : Sense → Sense) : (p.modSense c f).held = p.held := rfl
@[simp] theorem Part.modSense_links (p : Part) (c : Channel) (f : Sense → Sense) : (p.modSense c f).links = p.links := rfl
@[simp] theorem Part.modSense_batches (p : Part) (c : Channel) (f : Sense → Sense) : (p.modSense c f).batches = p.batches := rfl
@[simp] theorem Part.modSense_binding (p : Part) (c : Channel) (f : Sense → Sense) : (p.modSense c f).binding = p.binding := rfl
@[simp] theorem Part.modSense_ctx (p : Part) (c : Channel) (f : Sense → Sense) : (p.modSense c f).ctx = p.ctx := rfl
@[simp] theorem Part.modSense_carrier (p : Part) (c : Channel) (f : Sense → Sense) : (p.modSense c f).carrier = p.carrier := rfl
@[simp] theorem Part.modSense_bus (p : Part) (c : Channel) (f : Sense → Sense) : (p.modSense c f).bus = p.bus := rfl
@[simp] theorem Part.modSense_faults (p : Part) (c : Channel) (f : Sense → Sense) : (p.modSense c f).faults = p.faults := rfl
@[simp] theorem Part.modSense_torque (p : Part) (c : Channel) (f : Sense → Sense) : (p.modSense c f).torque = p.torque := rfl
@[simp] theorem Part.modSense_sense (p : Part) (c : Channel) (f : Sense → Sense) :
    (p.modSense c f).sense = p.sense.set c (f (p.sense.get c)) := rfl

@[simp] theorem Part.modDrive_held (p : Part) (c : Channel) (f : Drive → Drive) : (p.modDrive c f).held = p.held := rfl
@[simp] theorem Part.modDrive_links (p : Part) (c : Channel) (f : Drive → Drive) : (p.modDrive c f).links = p.links := rfl
@[simp] theorem Part.modDrive_batches (p : Part) (c : Channel) (f : Drive → Drive) : (p.modDrive c f).batches = p.batches := rfl
@[simp] theorem Part.modDrive_binding (p : Part) (c : Channel) (f : Drive → Drive) : (p.modDrive c f).binding = p.binding := rfl
@[simp] theorem Part.modDrive_ctx (p : Part) (c : Channel) (f : Drive → Drive) : (p.modDrive c f).ctx = p.ctx := rfl
@[simp] theorem Part.modDrive_sense (p : Part) (c : Channel) (f : Drive → Drive) : (p.modDrive c f).sense = p.sense := rfl
@[simp] theorem Part.modDrive_bus (p : Part) (c : Channel) (f : Drive → Drive) : (p.modDrive c f).bus = p.bus := rfl
@[simp] theorem Part.modDrive_faults (p : Part) (c : Channel) (f : Drive → Drive) : (p.modDrive c f).faults = p.faults := rfl
@[simp] theorem Part.modDrive_torque (p : Part) (c : Channel) (f : Drive → Drive) : (p.modDrive c f).torque = p.torque := rfl
@[simp] theorem Part.modDrive_drives (p : Part) (c : Channel) (f : Drive → Drive) :
    (p.modDrive c f).carrier.drives = p.carrier.drives.set c (f (p.carrier.drives.get c)) := rfl

@[simp] theorem Part.modLink_held (p : Part) (l : Link) (f : LinkIf → LinkIf) : (p.modLink l f).held = p.held := rfl
@[simp] theorem Part.modLink_batches (p : Part) (l : Link) (f : LinkIf → LinkIf) : (p.modLink l f).batches = p.batches := rfl
@[simp] theorem Part.modLink_binding (p : Part) (l : Link) (f : LinkIf → LinkIf) : (p.modLink l f).binding = p.binding := rfl
@[simp] theorem Part.modLink_ctx (p : Part) (l : Link) (f : LinkIf → LinkIf) : (p.modLink l f).ctx = p.ctx := rfl
@[simp] theorem Part.modLink_carrier (p : Part) (l : Link) (f : LinkIf → LinkIf) : (p.modLink l f).carrier = p.carrier := rfl
@[simp] theorem Part.modLink_sense (p : Part) (l : Link) (f : LinkIf → LinkIf) : (p.modLink l f).sense = p.sense := rfl
@[simp] theorem Part.modLink_bus (p : Part) (l : Link) (f : LinkIf → LinkIf) : (p.modLink l f).bus = p.bus := rfl
@[simp] theorem Part.modLink_faults (p : Part) (l : Link) (f : LinkIf → LinkIf) : (p.modLink l f).faults = p.faults := rfl
@[simp] theorem Part.modLink_torque (p : Part) (l : Link) (f : LinkIf → LinkIf) : (p.modLink l f).torque = p.torque := rfl
@[simp] theorem Part.modLink_links (p : Part) (l : Link) (f : LinkIf → LinkIf) :
    (p.modLink l f).links = p.links.set l (f (p.links.get l)) := rfl

@[simp] theorem Part.modTorque_held (p : Part) (f : Torque → Torque) : (p.modTorque f).held = p.held := rfl
@[simp] theorem Part.modTorque_links (p : Part) (f : Torque → Torque) : (p.modTorque f).links = p.links := rfl
@[simp] theorem Part.modTorque_batches (p : Part) (f : Torque → Torque) : (p.modTorque f).batches = p.batches := rfl
@[simp] theorem Part.modTorque_binding (p : Part) (f : Torque → Torque) : (p.modTorque f).binding = p.binding := rfl
@[simp] theorem Part.modTorque_ctx (p : Part) (f : Torque → Torque) : (p.modTorque f).ctx = p.ctx := rfl
@[simp] theorem Part.modTorque_carrier (p : Part) (f : Torque → Torque) : (p.modTorque f).carrier = p.carrier := rfl
@[simp] theorem Part.modTorque_sense (p : Part) (f : Torque → Torque) : (p.modTorque f).sense = p.sense := rfl
@[simp] theorem Part.modTorque_bus (p : Part) (f : Torque → Torque) : (p.modTorque f).bus = p.bus := rfl
@[simp] theorem Part.modTorque_faults (p : Part) (f : Torque → Torque) : (p.modTorque f).faults = p.faults := rfl
@[simp] theorem Part.modTorque_torque (p : Part) (f : Torque → Torque) : (p.modTorque f).torque = f p.torque := rfl

@[simp] theorem Part.setSeen_ctx (p : Part) (l : Link) (c : Channel) (x : CauseSet) : (p.setSeen l c x).ctx = p.ctx := rfl
@[simp] theorem Part.setSeen_links (p : Part) (l : Link) (c : Channel) (x : CauseSet) : (p.setSeen l c x).links = p.links := rfl
@[simp] theorem Part.setSeen_torque (p : Part) (l : Link) (c : Channel) (x : CauseSet) : (p.setSeen l c x).torque = p.torque := rfl
@[simp] theorem Part.setSeen_causes (p : Part) (l : Link) (c : Channel) (x : CauseSet) :
    (p.setSeen l c x).faults.causes = p.faults.causes := rfl
@[simp] theorem Part.setCauses_ctx (p : Part) (c : Channel) (x : CauseSet) : (p.setCauses c x).ctx = p.ctx := rfl
@[simp] theorem Part.setCauses_links (p : Part) (c : Channel) (x : CauseSet) : (p.setCauses c x).links = p.links := rfl
@[simp] theorem Part.setCauses_torque (p : Part) (c : Channel) (x : CauseSet) : (p.setCauses c x).torque = p.torque := rfl
@[simp] theorem Part.setCauses_seen (p : Part) (c : Channel) (x : CauseSet) : (p.setCauses c x).faults.seen = p.faults.seen := rfl
@[simp] theorem Part.setCauses_causes (p : Part) (c : Channel) (x : CauseSet) :
    (p.setCauses c x).faults.causes = p.faults.causes.set c x := rfl

@[simp] theorem Part.setReply_links (p : Part) (l : Link) (r : Reply) :
    (p.setReply l r).links = p.links.set l { p.links.get l with reply := r } := rfl

end Machine

end Sys2Proof
end

