-- ==== Sys2Proof/Laws/Agenda.lean ====
section
/-! SUPPORT. What one step of the machine can do, said once: every command answers a next state; on a state with no step due a
command is its effect on the part; and a property of the part that every due step and every command's effect keep is kept by
every step of the machine. -/

namespace Sys2Proof.Machine

/-! ### No step due -/

@[simp] theorem settleFor_nil (n : Nat) (p : Part) : settleFor n p [] = (p, []) := by
  cases n <;> rfl

@[simp] theorem Part.settle_nil (p : Part) : p.settle [] = p := rfl

@[simp] theorem settleUpTo_nil (r : DueRow) (n : Nat) (p : Part) : settleUpTo r n p [] = (p, []) := by
  cases n <;> rfl

theorem State.actAfterAll_idle (s : State) (f : Part → Part × List Due) (h : s.due = []) :
    s.actAfterAll f = { s with part := (f s.part).1, due := (f s.part).2 } := by
  simp [State.actAfterAll, h]

theorem State.act_idle (s : State) (f : Part → Part × List Due) (h : s.due = []) :
    s.act f = { s with part := (f s.part).1, due := (f s.part).2 } := by
  simp [State.act, waitingBus, h, State.actAfterAll_idle]

/-- A command that a waiting bus unit's operation lets come first: the steps due before the operation are taken, then the
command, and the operation waits for one command fewer. -/
theorem State.act_waiting (s : State) (f : Part → Part × List Due) {ds : List Due} {n : Nat} {raw : Raw}
    (h : s.due = ds ++ [.busOperation (n + 1) raw]) :
    s.act f = { s with part := (f (s.part.settle ds)).1,
                       due := (f (s.part.settle ds)).2 ++ [.busOperation n raw] } := by
  simp [State.act, waitingBus, h]

/-- Without a bus unit's operation that waits, all due steps are taken first. -/
theorem State.act_free (s : State) (f : Part → Part × List Due)
    (h : ∀ ds n raw, s.due ≠ ds ++ [.busOperation (n + 1) raw]) : s.act f = s.actAfterAll f := by
  have none : waitingBus s.due = none := by
    unfold waitingBus
    split
    · rename_i n raw e
      obtain ⟨l, hl⟩ := List.getLast?_eq_some_iff.mp e
      exact absurd hl (h l n raw)
    · rfl
  simp [State.act, none]

theorem State.run_idle (s : State) (f : Part → Part) (h : s.due = []) : s.run f = { s with part := f s.part } := by
  rw [State.run, State.act_idle s _ h, ← h]

theorem State.takeRow_idle (s : State) (r : DueRow) (h : s.due = []) : s.takeRow r = s := by
  cases s; simp_all [State.takeRow]

theorem Due.weight_pos (d : Due) : 0 < d.weight := by
  cases d <;> simp [Due.weight]

/-- A row that stands first among the due steps is taken. -/
theorem State.takeRow_head (s : State) (r : DueRow) (d : Due) (ds : List Due) (h : s.due = d :: ds) (hr : d.row = some r) :
    s.takeRow r = { s with part := (d.take s.part).1, due := (d.take s.part).2 ++ ds } := by
  have hw : ∃ n, dueWeight (d :: ds) = n + 1 := by
    refine ⟨dueWeight (d :: ds) - 1, ?_⟩
    have : 0 < d.weight := Due.weight_pos d
    simp [dueWeight]; omega
  obtain ⟨n, hn⟩ := hw
  simp [State.takeRow, h, hn, settleUpTo, hr]

/-! ### Due steps -/

/-- The steps that a due step makes due weigh less than it. -/
theorem Due.weight_take (d : Due) (p : Part) : dueWeight (d.take p).2 < d.weight := by
  have hreview : ∀ q : Part, dueWeight q.review.2 ≤ 1 := by
    intro q; simp only [Part.review]; split
    · decide
    · split <;> decide
  have hbus : ∀ raw, dueWeight (p.busOperation raw).2 < 4 := by
    intro raw; simp only [Part.busOperation]; split
    · simp [dueWeight, Due.weight]
    · exact lt_of_le_of_lt (hreview _) (by decide)
  cases d with
  | busOperation _ raw => exact hbus raw
  | review => exact lt_of_le_of_lt (hreview p) (by decide)
  | decide c =>
    simp only [Due.take, Part.decide, Due.weight]
    split
    · simp [dueWeight]
    · split
      · split <;> simp [dueWeight, Due.weight]
      · simp [dueWeight]
  | publish c =>
    simp only [Due.take, Due.weight]
    split <;> simp [dueWeight]
  | _ => simp [Due.take, Due.weight, dueWeight]

/-- The agenda's fuel suffices: when all due steps are taken, none is left. -/
theorem settleFor_due (n : Nat) (p : Part) (ds : List Due) (h : dueWeight ds ≤ n) : (settleFor n p ds).2 = [] := by
  induction n generalizing p ds with
  | zero =>
    cases ds with
    | nil => rfl
    | cons d ds =>
      have : 0 < d.weight := Due.weight_pos d
      simp [dueWeight] at h; omega
  | succ n ih =>
    cases ds with
    | nil => rfl
    | cons d ds =>
      simp only [settleFor]
      apply ih
      have h1 := Due.weight_take d p
      simp [dueWeight] at h h1 ⊢
      omega

/-- What a due step leaves due weighs less than the list it stood in. -/
theorem dueWeight_take_lt (d : Due) (p : Part) (ds : List Due) : dueWeight ((d.take p).2 ++ ds) < dueWeight (d :: ds) := by
  have h := Due.weight_take d p
  simp only [dueWeight, List.map_append, List.sum_append, List.map_cons, List.sum_cons] at h ⊢
  omega

/-- More fuel than the agenda needs changes nothing. -/
theorem settleFor_fuel {n m : Nat} (p : Part) (ds : List Due) (hn : dueWeight ds ≤ n) (hm : dueWeight ds ≤ m) :
    settleFor n p ds = settleFor m p ds := by
  induction n generalizing m p ds with
  | zero =>
    cases ds with
    | nil => simp
    | cons d ds =>
      have := Due.weight_pos d
      simp [dueWeight] at hn; omega
  | succ n ih =>
    cases ds with
    | nil => simp
    | cons d ds =>
      have := dueWeight_take_lt d p ds
      cases m with
      | zero => omega
      | succ m => exact ih _ _ (by omega) (by omega)

/-- All due steps are taken by taking the first, and then what it makes due with the rest. -/
theorem Part.settle_cons (p : Part) (d : Due) (ds : List Due) :
    p.settle (d :: ds) = (d.take p).1.settle ((d.take p).2 ++ ds) := by
  have h := dueWeight_take_lt d p ds
  obtain ⟨n, hn⟩ : ∃ n, dueWeight (d :: ds) = n + 1 := ⟨dueWeight (d :: ds) - 1, by omega⟩
  unfold Part.settle
  rw [hn, settleFor, settleFor_fuel (m := dueWeight ((d.take p).2 ++ ds)) _ _ (by omega) le_rfl]

/-- The same for the search of a row among the due steps. -/
theorem settleUpTo_fuel (r : DueRow) {n m : Nat} (p : Part) (ds : List Due) (hn : dueWeight ds ≤ n) (hm : dueWeight ds ≤ m) :
    settleUpTo r n p ds = settleUpTo r m p ds := by
  induction n generalizing m p ds with
  | zero =>
    cases ds with
    | nil => simp
    | cons d ds =>
      have := Due.weight_pos d
      simp [dueWeight] at hn; omega
  | succ n ih =>
    cases ds with
    | nil => simp
    | cons d ds =>
      have := dueWeight_take_lt d p ds
      cases m with
      | zero => omega
      | succ m =>
        simp only [settleUpTo]
        split
        · rfl
        · exact ih _ _ (by omega) (by omega)

/-- A row that is not the first due step is taken after the first. -/
theorem State.takeRow_later (s : State) (r : DueRow) (d : Due) (ds : List Due) (h : s.due = d :: ds) (hr : d.row ≠ some r) :
    s.takeRow r = ({ s with part := (d.take s.part).1, due := (d.take s.part).2 ++ ds } : State).takeRow r := by
  have hlt := dueWeight_take_lt d s.part ds
  obtain ⟨n, hn⟩ : ∃ n, dueWeight (d :: ds) = n + 1 := ⟨dueWeight (d :: ds) - 1, by omega⟩
  have e := settleUpTo_fuel r (n := n) (m := dueWeight ((d.take s.part).2 ++ ds)) (d.take s.part).1 _ (by omega) le_rfl
  simp [State.takeRow, h, hn, settleUpTo, hr, e]

/-! ### Every command -/

/-- The effect on the part of a command that is neither the full reset nor a row due inside another step. -/
def effectOf : Instr → Part → Part × List Due
  | .resetEnd t b l, p => (p.resetEnd t b l, [])
  | .frameMark raw o, p => p.frameMarkOp raw o
  | .brkOnTimeEnd, p => (p.brkOnTimeEnd, [])
  | .valley c a b o, p => p.valleyOp c a b o
  | .computationComplete c, p => p.complete c
  | .legEdge c l, p => (p.legEdge c l, [])
  | .bfltActive c, p => (p.bfltActive c, [])
  | .bfltInactive c, p => (p.bfltInactive c, [])
  | .tenFall, p => (p.tenFall, [])
  | .tenRise, p => (p.tenRise, [])
  | .frameStart l, p => (p.frameStart l, [])
  | .frameError l b w, p => (p.frameEnd l b w, [])
  | .ignoredFrameEnd l, p => (p.ignoredFrameEnd l, [])
  | .nop l d, p => (p.request l d (fun p => p.nopReq l), [])
  | .linkReset l d, p => (p.request l d (fun p => p.linkResetReq l d), [])
  | .status l d, p => (p.request l d (fun p => p.statusReq l d), [])
  | .events l d, p => (p.request l d (fun p => p.eventsReq l d), [])
  | .read l d, p => (p.request l d (fun p => p.readReq l d), [])
  | .ack l d, p => (p.request l d (fun p => p.ackReq l d), [])
  | .claim l d, p => (p.request l d (fun p => p.claimReq l d), [])
  | .release l d, p => (p.request l d (fun p => p.releaseReq l d), [])
  | .map l d, p => (p.request l d (fun p => p.mapReq l d), [])
  | .unmap l d, p => (p.request l d (fun p => p.unmapReq l d), [])
  | .revoke l d, p => (p.request l d (fun p => p.revokeReq l d), [])
  | .ceiling l d, p => (p.request l d (fun p => p.ceilingReq l d), [])
  | .enable l d, p => (p.request l d (fun p => p.enableReq l d), [])
  | .disable l d, p => (p.request l d (fun p => p.disableReq l d), [])
  | .discard l d, p => (p.request l d (fun p => p.discardReq l d), [])
  | .timing l d, p => (p.request l d (fun p => p.timingReq l d), [])
  | .slot l d, p => (p.request l d (fun p => p.slotReq l d), [])
  | .bus l d, p => (p.request l d (fun p => p.busReq l d), [])
  | .budget l d, p => (p.request l d (fun p => p.budgetReq l d), [])
  | .classes l d, p => (p.request l d (fun p => p.classReq l d), [])
  | .withdraw l d, p => (p.request l d (fun p => p.withdrawReq l d), [])
  | .restore l d, p => (p.request l d (fun p => p.restoreReq l d), [])
  | .edgeClear l d, p => (p.request l d (fun p => p.edgeClearReq l d), [])
  | .paramSense l c f, p => (p.request l (c :: 1 :: f) (fun p => p.paramReq l c (senseFields f) (Part.storeSense l)), [])
  | .paramTrack l c f, p => (p.request l (c :: 2 :: f) (fun p => p.paramReq l c (trackFields f) (Part.storeTrack l)), [])
  | .paramLoop l c f, p => (p.request l (c :: 3 :: f) (fun p => p.paramReq l c (loopFields f) (Part.storeLoop l)), [])
  | .paramLimits l c f, p => (p.request l (c :: 4 :: f) (fun p => p.paramReq l c (limitsFields f) (Part.storeLimits l)), [])
  | .paramProtect l c f, p => (p.request l (c :: 5 :: f) (fun p => p.paramReq l c (protectFields f) (Part.storeProtect l)), [])
  | .paramHold l c f, p => (p.request l (c :: 6 :: f) (fun p => p.paramReq l c (holdFields f) (Part.storeHold l)), [])
  | .set l i r, p => (p.request l (setFlagByte i 0 :: r) (fun p => p.setReq l false r), [])
  | .setEnd l i r, p => (p.request l (setFlagByte i 1 :: r) (fun p => p.setReq l true r), [])
  | .fullReset, p => (p, [])
  | .busUv, p => (p, [])
  | .chopperBlocked, p => (p, [])
  | .chopperRestored, p => (p, [])
  | .overcurrent _, p => (p, [])
  | .sampleLoss _, p => (p, [])
  | .captureEnd _, p => (p, [])
  | .offsetStep _ _, p => (p, [])
  | .recapture _, p => (p, [])
  | .peakExhausted _, p => (p, [])
  | .holdEntry _, p => (p, [])
  | .setpointTimeout _, p => (p, [])

/-- What a command can do: reset the part, take a row that is due, or be its effect, with the due steps taken first. -/
theorem exec_cases (c : Instr) (s : State) :
    exec c s = .next { s with part := .afterReset true, due := [] } ∨ (∃ r, exec c s = .next (s.takeRow r)) ∨
      exec c s = .next (s.actAfterAll (effectOf c)) ∨ exec c s = .next (s.act (effectOf c)) := by
  cases c <;> first
    | exact Or.inl rfl
    | exact Or.inr (Or.inl ⟨_, rfl⟩)
    | exact Or.inr (Or.inr (Or.inl rfl))
    | exact Or.inr (Or.inr (Or.inr rfl))
    | (simp only [exec, execValley]; split
       · exact Or.inr (Or.inr (Or.inr rfl))
       · exact Or.inr (Or.inr (Or.inl rfl)))

/-- Every command answers a next state. -/
theorem exec_next (c : Instr) (s : State) : ∃ t, exec c s = .next t := by
  rcases exec_cases c s with h | ⟨r, h⟩ | h | h <;> exact ⟨_, h⟩

/-- No command touches the queue. -/
theorem exec_pending (c : Instr) (s t : State) (h : exec c s = .next t) : t.pending = s.pending := by
  rcases exec_cases c s with e | ⟨r, e⟩ | e | e <;> rw [e] at h <;> injection h with h <;> subst h
  · rfl
  · rfl
  · rfl
  · unfold State.act; split <;> rfl

/-! ### Properties of the part that every step keeps -/

theorem settleFor_keeps (I : Part → Prop) (take : ∀ d p, I p → I (Due.take d p).1) (n : Nat) (p : Part) (ds : List Due)
    (h : I p) : I (settleFor n p ds).1 := by
  induction n generalizing p ds with
  | zero => exact h
  | succ n ih =>
    cases ds with
    | nil => exact h
    | cons d ds => exact ih _ _ (take d p h)

theorem settleUpTo_keeps (I : Part → Prop) (take : ∀ d p, I p → I (Due.take d p).1) (r : DueRow) (n : Nat) (p : Part)
    (ds : List Due) (h : I p) : I (settleUpTo r n p ds).1 := by
  induction n generalizing p ds with
  | zero => exact h
  | succ n ih =>
    cases ds with
    | nil => exact h
    | cons d ds =>
      simp only [settleUpTo]
      split
      · exact take d p h
      · exact ih _ _ (take d p h)

/-- A property of the part that the reset has, and that every due step and every command's effect keep, is kept by `exec`. -/
theorem exec_keeps (I : Part → Prop) (reset : I (.afterReset true)) (take : ∀ d p, I p → I (Due.take d p).1)
    (effect : ∀ c p, I p → I (effectOf c p).1) (c : Instr) (s t : State) (h : I s.part) (e : exec c s = .next t) :
    I t.part := by
  rcases exec_cases c s with e' | ⟨r, e'⟩ | e' | e' <;> rw [e'] at e <;> injection e with e <;> subst e
  · exact reset
  · exact settleUpTo_keeps I take r _ _ _ h
  · exact effect c _ (settleFor_keeps I take _ _ _ h)
  · unfold State.act
    split
    · exact effect c _ (settleFor_keeps I take _ _ _ h)
    · exact effect c _ (settleFor_keeps I take _ _ _ h)

/-- The same for a step of the machine. -/
theorem step_keeps (I : Part → Prop) (reset : I (.afterReset true)) (take : ∀ d p, I p → I (Due.take d p).1)
    (effect : ∀ c p, I p → I (effectOf c p).1) (s t : State) (h : I s.part) (e : step s = .next t) : I t.part := by
  unfold step at e
  split at e
  · injection e with e; subst e
    exact settleFor_keeps I take _ _ _ h
  · exact exec_keeps I reset take effect _ _ t (by exact h) e

end Sys2Proof.Machine
end

