-- ==== Sys2Proof/Laws/Events.lean ====
section
/-! SUPPORT. What events, causes and changes of state can do, said once for each shared operation: which blocks of the part each
of them leaves as they are, what an offer leaves of a link interface, and the states and cause sets that result. -/

namespace Sys2Proof.Machine

/-! ### Several channels -/

/-- A property that the operation on one channel keeps is kept by the operation on several. -/
theorem Part.forChannels_keeps (I : Part → Prop) (f : Channel → Part → Part) (h : ∀ c p, I p → I (f c p))
    (cs : List Channel) (p : Part) (hp : I p) : I (p.forChannels cs f) := by
  induction cs generalizing p with
  | nil => exact hp
  | cons c cs ih => exact ih _ (h c p hp)

/-! ### Events -/

/-- An event offered to a queue leaves the reply buffer, the receive logic and data out as they are. -/
theorem LinkIf.offer_keeps (i : LinkIf) (k : EventKind) (ch : Option Channel) (d : Detail) (n : Word16) :
    (i.offer k ch d n).reply = i.reply ∧ (i.offer k ch d n).rx = i.rx ∧ (i.offer k ch d n).shiftOut = i.shiftOut ∧
      (i.offer k ch d n).lastOut = i.lastOut := by
  have h : ∀ e : QueueEntry, (i.append e).reply = i.reply ∧ (i.append e).rx = i.rx ∧ (i.append e).shiftOut = i.shiftOut ∧
      (i.append e).lastOut = i.lastOut := by
    intro e; unfold LinkIf.append; split <;> exact ⟨rfl, rfl, rfl, rfl⟩
  unfold LinkIf.offer
  split
  · split
    · exact ⟨rfl, rfl, rfl, rfl⟩
    · exact h _
  · exact h _

@[simp] theorem Part.send_held (p : Part) (l : Link) (k : EventKind) (ch : Option Channel) (d : Detail) :
    (p.send l k ch d).held = p.held := rfl
@[simp] theorem Part.send_batches (p : Part) (l : Link) (k : EventKind) (ch : Option Channel) (d : Detail) :
    (p.send l k ch d).batches = p.batches := rfl
@[simp] theorem Part.send_binding (p : Part) (l : Link) (k : EventKind) (ch : Option Channel) (d : Detail) :
    (p.send l k ch d).binding = p.binding := rfl
@[simp] theorem Part.send_ctx (p : Part) (l : Link) (k : EventKind) (ch : Option Channel) (d : Detail) :
    (p.send l k ch d).ctx = p.ctx := rfl
@[simp] theorem Part.send_carrier (p : Part) (l : Link) (k : EventKind) (ch : Option Channel) (d : Detail) :
    (p.send l k ch d).carrier = p.carrier := rfl
@[simp] theorem Part.send_sense (p : Part) (l : Link) (k : EventKind) (ch : Option Channel) (d : Detail) :
    (p.send l k ch d).sense = p.sense := rfl
@[simp] theorem Part.send_bus (p : Part) (l : Link) (k : EventKind) (ch : Option Channel) (d : Detail) :
    (p.send l k ch d).bus = p.bus := rfl
@[simp] theorem Part.send_faults (p : Part) (l : Link) (k : EventKind) (ch : Option Channel) (d : Detail) :
    (p.send l k ch d).faults = p.faults := rfl
@[simp] theorem Part.send_torque (p : Part) (l : Link) (k : EventKind) (ch : Option Channel) (d : Detail) :
    (p.send l k ch d).torque = p.torque := rfl

@[simp] theorem Part.sendChannel_held (p : Part) (k : EventKind) (c : Channel) (d : Detail) :
    (p.sendChannel k c d).held = p.held := by
  unfold Part.sendChannel; split <;> rfl
@[simp] theorem Part.sendChannel_batches (p : Part) (k : EventKind) (c : Channel) (d : Detail) :
    (p.sendChannel k c d).batches = p.batches := by
  unfold Part.sendChannel; split <;> rfl
@[simp] theorem Part.sendChannel_binding (p : Part) (k : EventKind) (c : Channel) (d : Detail) :
    (p.sendChannel k c d).binding = p.binding := by
  unfold Part.sendChannel; split <;> rfl
@[simp] theorem Part.sendChannel_ctx (p : Part) (k : EventKind) (c : Channel) (d : Detail) :
    (p.sendChannel k c d).ctx = p.ctx := by
  unfold Part.sendChannel; split <;> rfl
@[simp] theorem Part.sendChannel_carrier (p : Part) (k : EventKind) (c : Channel) (d : Detail) :
    (p.sendChannel k c d).carrier = p.carrier := by
  unfold Part.sendChannel; split <;> rfl
@[simp] theorem Part.sendChannel_sense (p : Part) (k : EventKind) (c : Channel) (d : Detail) :
    (p.sendChannel k c d).sense = p.sense := by
  unfold Part.sendChannel; split <;> rfl
@[simp] theorem Part.sendChannel_bus (p : Part) (k : EventKind) (c : Channel) (d : Detail) :
    (p.sendChannel k c d).bus = p.bus := by
  unfold Part.sendChannel; split <;> rfl
@[simp] theorem Part.sendChannel_faults (p : Part) (k : EventKind) (c : Channel) (d : Detail) :
    (p.sendChannel k c d).faults = p.faults := by
  unfold Part.sendChannel; split <;> rfl
@[simp] theorem Part.sendChannel_torque (p : Part) (k : EventKind) (c : Channel) (d : Detail) :
    (p.sendChannel k c d).torque = p.torque := by
  unfold Part.sendChannel; split <;> rfl

/-- An event sent to one link touches that link's interface alone. -/
theorem Part.send_links (p : Part) (l : Link) (k : EventKind) (ch : Option Channel) (d : Detail) :
    (p.send l k ch d).links = p.links.set l ((p.links.get l).offer k ch d p.carrier.frameMark) := rfl

/-- An event leaves the reply, the receive logic and data out of every link as they are. -/
theorem Part.send_keeps (p : Part) (l k' : Link) (k : EventKind) (ch : Option Channel) (d : Detail) :
    ((p.send l k ch d).links.get k').reply = (p.links.get k').reply ∧
    ((p.send l k ch d).links.get k').rx = (p.links.get k').rx ∧
    ((p.send l k ch d).links.get k').shiftOut = (p.links.get k').shiftOut ∧
    ((p.send l k ch d).links.get k').lastOut = (p.links.get k').lastOut := by
  rw [Part.send_links]
  by_cases h : l = k'
  · subst h; simp only [Three.get_set_same]; exact LinkIf.offer_keeps _ _ _ _ _
  · simp [Three.get_set_ne _ _ h]

/-! ### Entering and leaving states -/

@[simp] theorem Part.enter_held (p : Part) (c : Channel) (st : ChState) : (p.enter c st).held = p.held := by
  simp [Part.enter]
@[simp] theorem Part.enter_batches (p : Part) (c : Channel) (st : ChState) : (p.enter c st).batches = p.batches := by
  simp [Part.enter]
@[simp] theorem Part.enter_binding (p : Part) (c : Channel) (st : ChState) : (p.enter c st).binding = p.binding := by
  simp [Part.enter]
@[simp] theorem Part.enter_carrier (p : Part) (c : Channel) (st : ChState) : (p.enter c st).carrier = p.carrier := by
  simp [Part.enter]
@[simp] theorem Part.enter_sense (p : Part) (c : Channel) (st : ChState) : (p.enter c st).sense = p.sense := by
  simp [Part.enter]
@[simp] theorem Part.enter_bus (p : Part) (c : Channel) (st : ChState) : (p.enter c st).bus = p.bus := by
  simp [Part.enter]
@[simp] theorem Part.enter_faults (p : Part) (c : Channel) (st : ChState) : (p.enter c st).faults = p.faults := by
  simp [Part.enter]
@[simp] theorem Part.enter_torque (p : Part) (c : Channel) (st : ChState) : (p.enter c st).torque = p.torque := by
  simp [Part.enter]

@[simp] theorem Part.enter_ctx (p : Part) (c : Channel) (st : ChState) :
    (p.enter c st).ctx = p.ctx.set c { p.ctx.get c with state := st } := by
  simp [Part.enter]

@[simp] theorem Part.leaveActive_held (p : Part) (c : Channel) : (p.leaveActive c).held = p.held := by
  unfold Part.leaveActive; split <;> rfl
@[simp] theorem Part.leaveActive_links (p : Part) (c : Channel) : (p.leaveActive c).links = p.links := by
  unfold Part.leaveActive; split <;> rfl
@[simp] theorem Part.leaveActive_batches (p : Part) (c : Channel) : (p.leaveActive c).batches = p.batches := by
  unfold Part.leaveActive; split <;> rfl
@[simp] theorem Part.leaveActive_binding (p : Part) (c : Channel) : (p.leaveActive c).binding = p.binding := by
  unfold Part.leaveActive; split <;> rfl
@[simp] theorem Part.leaveActive_bus (p : Part) (c : Channel) : (p.leaveActive c).bus = p.bus := by
  unfold Part.leaveActive; split <;> rfl
@[simp] theorem Part.leaveActive_faults (p : Part) (c : Channel) : (p.leaveActive c).faults = p.faults := by
  unfold Part.leaveActive; split <;> rfl
@[simp] theorem Part.leaveActive_torque (p : Part) (c : Channel) : (p.leaveActive c).torque = p.torque := by
  unfold Part.leaveActive; split <;> rfl

@[simp] theorem Part.leaveTo_held (p : Part) (c : Channel) (st : ChState) : (p.leaveTo c st).held = p.held := by
  simp [Part.leaveTo]
@[simp] theorem Part.leaveTo_batches (p : Part) (c : Channel) (st : ChState) : (p.leaveTo c st).batches = p.batches := by
  simp [Part.leaveTo]
@[simp] theorem Part.leaveTo_binding (p : Part) (c : Channel) (st : ChState) : (p.leaveTo c st).binding = p.binding := by
  simp [Part.leaveTo]
@[simp] theorem Part.leaveTo_bus (p : Part) (c : Channel) (st : ChState) : (p.leaveTo c st).bus = p.bus := by
  simp [Part.leaveTo]
@[simp] theorem Part.leaveTo_faults (p : Part) (c : Channel) (st : ChState) : (p.leaveTo c st).faults = p.faults := by
  simp [Part.leaveTo]
@[simp] theorem Part.leaveTo_torque (p : Part) (c : Channel) (st : ChState) : (p.leaveTo c st).torque = p.torque := by
  simp [Part.leaveTo]

/-- Leaving its active state changes the context of the channel alone, and not its state. -/
theorem Part.leaveActive_ctx (p : Part) (c : Channel) :
    ∃ x : Context, (p.leaveActive c).ctx = p.ctx.set c x ∧ x.state = p.stateOf c := by
  unfold Part.leaveActive
  split <;> rename_i h <;> first
    | exact ⟨_, rfl, rfl⟩
    | exact ⟨p.ctx.get c, by simp, rfl⟩

/-- The state of every channel after one leaves its state for `st`. -/
theorem Part.leaveTo_stateOf (p : Part) (c d : Channel) (st : ChState) :
    (p.leaveTo c st).stateOf d = if c = d then st else p.stateOf d := by
  obtain ⟨x, hx, -⟩ := p.leaveActive_ctx c
  simp only [Part.stateOf, Part.leaveTo, Part.enter_ctx, hx, Six.get_set]
  split
  · rfl
  · rfl

/-! ### Causes -/

/-- The causes of a channel after one is raised on it or on another channel (R177, step 1). -/
theorem Part.recordCause_causesOf (p : Part) (x : Cause) (c d : Channel) :
    (p.recordCause x c).causesOf d = if c = d then (p.causesOf c).put true x else p.causesOf d := by
  simp only [Part.recordCause, Part.causesOf, Part.setSeen_causes, Part.setCauses_causes, Six.get_set]

@[simp] theorem Part.recordCause_held (p : Part) (x : Cause) (c : Channel) : (p.recordCause x c).held = p.held := rfl
@[simp] theorem Part.recordCause_batches (p : Part) (x : Cause) (c : Channel) : (p.recordCause x c).batches = p.batches := rfl
@[simp] theorem Part.recordCause_binding (p : Part) (x : Cause) (c : Channel) : (p.recordCause x c).binding = p.binding := rfl
@[simp] theorem Part.recordCause_ctx (p : Part) (x : Cause) (c : Channel) : (p.recordCause x c).ctx = p.ctx := rfl
@[simp] theorem Part.recordCause_carrier (p : Part) (x : Cause) (c : Channel) : (p.recordCause x c).carrier = p.carrier := rfl
@[simp] theorem Part.recordCause_sense (p : Part) (x : Cause) (c : Channel) : (p.recordCause x c).sense = p.sense := rfl
@[simp] theorem Part.recordCause_bus (p : Part) (x : Cause) (c : Channel) : (p.recordCause x c).bus = p.bus := rfl
@[simp] theorem Part.recordCause_torque (p : Part) (x : Cause) (c : Channel) : (p.recordCause x c).torque = p.torque := rfl
@[simp] theorem Part.recordCause_links (p : Part) (x : Cause) (c : Channel) : (p.recordCause x c).links = p.links := rfl

@[simp] theorem Part.raiseOne_held (p : Part) (x : Cause) (c : Channel) : (p.raiseOne x c).held = p.held := by
  simp only [Part.raiseOne]; split <;> simp
@[simp] theorem Part.raiseOne_batches (p : Part) (x : Cause) (c : Channel) : (p.raiseOne x c).batches = p.batches := by
  simp only [Part.raiseOne]; split <;> simp
@[simp] theorem Part.raiseOne_binding (p : Part) (x : Cause) (c : Channel) : (p.raiseOne x c).binding = p.binding := by
  simp only [Part.raiseOne]; split <;> simp
@[simp] theorem Part.raiseOne_bus (p : Part) (x : Cause) (c : Channel) : (p.raiseOne x c).bus = p.bus := by
  simp only [Part.raiseOne]; split <;> simp
@[simp] theorem Part.raiseOne_torque (p : Part) (x : Cause) (c : Channel) : (p.raiseOne x c).torque = p.torque := by
  simp only [Part.raiseOne]; split <;> simp

@[simp] theorem Part.raise_held (p : Part) (x : Cause) (c : Channel) : (p.raise x c).held = p.held := by
  simp only [Part.raise, Part.partnerRule]; split
  · split
    · split <;> simp
    · simp
  · simp
@[simp] theorem Part.raise_batches (p : Part) (x : Cause) (c : Channel) : (p.raise x c).batches = p.batches := by
  simp only [Part.raise, Part.partnerRule]; split
  · split
    · split <;> simp
    · simp
  · simp
@[simp] theorem Part.raise_binding (p : Part) (x : Cause) (c : Channel) : (p.raise x c).binding = p.binding := by
  simp only [Part.raise, Part.partnerRule]; split
  · split
    · split <;> simp
    · simp
  · simp
@[simp] theorem Part.raise_bus (p : Part) (x : Cause) (c : Channel) : (p.raise x c).bus = p.bus := by
  simp only [Part.raise, Part.partnerRule]; split
  · split
    · split <;> simp
    · simp
  · simp
@[simp] theorem Part.raise_torque (p : Part) (x : Cause) (c : Channel) : (p.raise x c).torque = p.torque := by
  simp only [Part.raise, Part.partnerRule]; split
  · split
    · split <;> simp
    · simp
  · simp

/-- The state of every channel after a cause is raised on one, its partner left aside (R14). -/
theorem Part.raiseOne_stateOf (p : Part) (x : Cause) (c d : Channel) :
    (p.raiseOne x c).stateOf d = if c = d ∧ (p.stateOf c).faultable = true then .fault else p.stateOf d := by
  simp only [Part.raiseOne]
  by_cases h : (p.stateOf c).faultable = true
  · rw [if_pos h, Part.leaveTo_stateOf]
    by_cases e : c = d
    · rw [if_pos e, if_pos ⟨e, h⟩]
    · rw [if_neg e, if_neg (fun k => e k.1)]
      simp only [Part.stateOf, Part.sendChannel_ctx, Part.recordCause_ctx]
  · rw [if_neg h, if_neg (fun k => h k.2)]
    simp only [Part.stateOf, Part.sendChannel_ctx, Part.recordCause_ctx]

/-- The causes of every channel after a cause is raised on one, its partner left aside. -/
theorem Part.raiseOne_causesOf (p : Part) (x : Cause) (c d : Channel) :
    (p.raiseOne x c).causesOf d = if c = d then (p.causesOf c).put true x else p.causesOf d := by
  have h : (p.raiseOne x c).faults = (p.recordCause x c).faults := by
    simp only [Part.raiseOne]; split <;> simp
  have h' := Part.recordCause_causesOf p x c d
  simp only [Part.causesOf] at h' ⊢
  rw [h]; exact h'

@[simp] theorem CauseSet.has_put_same (s : CauseSet) (x : Cause) : (s.put true x).has x = true := by
  cases x <;> rfl

/-- A cause added takes none away. -/
theorem CauseSet.has_put (s : CauseSet) (x y : Cause) (h : s.has x = true) : (s.put true y).has x = true := by
  cases x <;> cases y <;> simp_all [CauseSet.has, CauseSet.put]

/-- A property of the part that a cause raised on one channel keeps is kept by a cause with its partner rule. -/
theorem Part.raise_keeps (I : Part → Prop) (h : ∀ p x c, I p → I (Part.raiseOne p x c)) (p : Part) (x : Cause) (c : Channel)
    (hp : I (p.raiseOne x c)) : I (p.raise x c) := by
  simp only [Part.raise, Part.partnerRule]
  split
  · split
    · split
      · exact h _ _ _ hp
      · exact hp
    · exact hp
  · exact hp

/-- A cause raised takes no cause away from any channel. -/
theorem Part.raiseOne_keeps_cause (d : Channel) (y : Cause) (p : Part) (x : Cause) (c : Channel)
    (h : (p.causesOf d).has y = true) : ((p.raiseOne x c).causesOf d).has y = true := by
  rw [Part.raiseOne_causesOf]
  split
  · next e => subst e; exact CauseSet.has_put _ _ _ h
  · exact h

/-- A cause raised leaves a channel in FAULT there. -/
theorem Part.raiseOne_keeps_fault (d : Channel) (p : Part) (x : Cause) (c : Channel) (h : p.stateOf d = .fault) :
    (p.raiseOne x c).stateOf d = .fault := by
  rw [Part.raiseOne_stateOf]; split <;> simp [h]

/-- A cause raised takes no channel to SAFE_OFF. -/
theorem Part.raiseOne_keeps_out_of_safeOff (d : Channel) (p : Part) (x : Cause) (c : Channel) (h : p.stateOf d ≠ .safeOff) :
    (p.raiseOne x c).stateOf d ≠ .safeOff := by
  rw [Part.raiseOne_stateOf]; split <;> simp [h]

/-- A cause raised on a channel is in its cause set, and the channel is in FAULT unless it was in SAFE_OFF (R14, R177). -/
theorem Part.raise_self (p : Part) (x : Cause) (c : Channel) :
    ((p.raise x c).causesOf c).has x = true ∧ (p.stateOf c ≠ .safeOff → (p.raise x c).stateOf c = .fault) := by
  refine ⟨Part.raise_keeps _ (Part.raiseOne_keeps_cause c x) p x c ?_, fun h =>
    Part.raise_keeps _ (Part.raiseOne_keeps_fault c) p x c ?_⟩
  · rw [Part.raiseOne_causesOf]; simp
  · rw [Part.raiseOne_stateOf]
    cases e : p.stateOf c <;> simp_all [ChState.faultable]

/-- A property that a raise keeps is kept by a raise on several channels. -/
theorem Part.raiseOn_keeps (I : Part → Prop) (h : ∀ p x c, I p → I (Part.raiseOne p x c)) (p : Part) (x : Cause)
    (cs : List Channel) (hp : I p) : I (p.raiseOn x cs) :=
  Part.forChannels_keeps I (fun c q => q.raise x c) (fun c q hq => Part.raise_keeps I h q x c (h q x c hq)) cs p hp

/-- A cause raised on several channels is in the cause set of each, and each is in FAULT unless it was in SAFE_OFF. -/
theorem Part.raiseOn_mem (p : Part) (x : Cause) (cs : List Channel) {c : Channel} (hc : c ∈ cs) :
    ((p.raiseOn x cs).causesOf c).has x = true ∧ (p.stateOf c ≠ .safeOff → (p.raiseOn x cs).stateOf c = .fault) := by
  induction cs generalizing p with
  | nil => cases hc
  | cons d ds ih =>
    rcases List.mem_cons.mp hc with e | e
    · subst e
      exact ⟨Part.raiseOn_keeps _ (Part.raiseOne_keeps_cause c x) (p.raise x c) x ds (p.raise_self x c).1, fun h =>
        Part.raiseOn_keeps _ (Part.raiseOne_keeps_fault c) (p.raise x c) x ds ((p.raise_self x c).2 h)⟩
    · refine ⟨(ih (p.raise x d) e).1, fun h => (ih (p.raise x d) e).2 ?_⟩
      exact Part.raise_keeps _ (Part.raiseOne_keeps_out_of_safeOff c) p x d (Part.raiseOne_keeps_out_of_safeOff c p x d h)

end Sys2Proof.Machine
end

