-- ==== Sys2Proof/Laws/Fields.lean ====
section
/-! SUPPORT. The fields of payloads: reading a field that was formed gives its value back (R121). -/

namespace Sys2Proof.Machine

@[simp] theorem put16_length (n : Nat) : (put16 n).length = 2 := rfl
@[simp] theorem put8_length (n : Nat) : (put8 n).length = 1 := rfl
@[simp] theorem put32_length (n : Nat) : (put32 n).length = 4 := rfl
@[simp] theorem putS16_length (x : Int) : (putS16 x).length = 2 := rfl
@[simp] theorem putS32_length (x : Int) : (putS32 x).length = 4 := rfl

/-- An unsigned field of two bytes is read as it was formed. -/
theorem u16_put16 {n : Nat} (h : n < 65536) : u16 (BitVec.ofNat 8 (n / 256)) (BitVec.ofNat 8 n) = n := by
  simp only [u16, BitVec.toNat_ofNat]
  omega

/-- An unsigned field of four bytes is read as it was formed. -/
theorem u32_put32 {n : Nat} (h : n < 2 ^ 32) :
    u32 (BitVec.ofNat 8 (n / 65536 / 256)) (BitVec.ofNat 8 (n / 65536)) (BitVec.ofNat 8 (n / 256)) (BitVec.ofNat 8 n) = n := by
  simp only [u32, u16, BitVec.toNat_ofNat]
  omega

/-- A signed field of two bytes is read as it was formed. -/
theorem s16_putS16 {x : Int} (h : -32768 ≤ x) (h' : x ≤ 32767) :
    s16 (BitVec.ofNat 8 ((BitVec.ofInt 16 x).toNat / 256)) (BitVec.ofNat 8 (BitVec.ofInt 16 x).toNat) = x := by
  unfold s16
  rw [u16_put16 (BitVec.ofInt 16 x).isLt, BitVec.ofNat_toNat, BitVec.setWidth_eq, BitVec.toInt_ofInt]
  simp only [Int.bmod]
  omega

/-- A channel index byte names its channel. -/
@[simp] theorem channelOf_ofNat (c : Channel) : channelOf (BitVec.ofNat 8 c.val) = some c := by
  fin_cases c <;> rfl

/-- A link slot byte names its link slot. -/
@[simp] theorem linkSlotOf_ofNat (k : LinkSlot) : linkSlotOf (BitVec.ofNat 8 k.val) = some k := by
  fin_cases k <;> rfl

end Sys2Proof.Machine
end

