-- ==== Sys2Proof/Laws/Links.lean ====
section
/-! SUPPORT. What the end of a frame leaves: a request that a link takes is its own judgement followed by the end of the frame,
and each of the replies followed by the end of the frame is `Part.answered`. -/

namespace Sys2Proof.Machine

/-! ### Commands on a machine with no step due -/

/-- A command that is no full reset and no row of another step, on a machine with no step due, is its effect on the part. -/
theorem exec_idle {c : Instr} {s : State} (h : s.due = []) (hr : dueRowOf c = none) (hc : c ≠ .fullReset) :
    exec c s = .next { s with part := (effectOf c s.part).1, due := (effectOf c s.part).2 } := by
  cases c <;> first
    | exact absurd rfl hc
    | (simp [dueRowOf] at hr; done)
    | exact congrArg _ (State.act_idle s _ h)
    | exact congrArg _ (State.actAfterAll_idle s _ h)
    | (simp only [exec, execValley]; split
       · exact congrArg _ (State.act_idle s _ h)
       · exact congrArg _ (State.actAfterAll_idle s _ h))

/-- A row of another step that is not due has no effect of its own. -/
theorem exec_row_idle {c : Instr} {s : State} {r : DueRow} (h : s.due = []) (hr : dueRowOf c = some r) : exec c s = .next s := by
  cases c <;> first
    | (simp [dueRowOf] at hr; done)
    | exact congrArg _ (State.takeRow_idle s _ h)

/-! ### Data out -/

/-- Data out shifts one byte for each byte clocked. -/
@[simp] theorem clockOut_length (reply : List Byte) (n : Nat) : (clockOut reply n).length = n := by
  simp [clockOut]; omega

/-- Byte `j` of a frame shifts out byte `j` of the reply, and 0x00 past its end. -/
theorem clockOut_get (reply : List Byte) {n j : Nat} (h : j < n) : (clockOut reply n)[j]? = some (reply.getD j 0x00) := by
  unfold clockOut
  by_cases hr : j < reply.length
  · rw [List.getElem?_append_left (by simp; omega), List.getElem?_take_of_lt h]
    simp [hr]
  · rw [List.getElem?_append_right (by simp; omega)]
    simp [List.getElem?_replicate, hr]
    omega

/-! ### Replies at the end of a frame -/

/-- A reply set and the frame ended. -/
theorem Part.endFrame_setReply (p : Part) (l : Link) (out : List Byte) (r : Reply) :
    (p.setReply l r).endFrame l out = p.answered l out r := by
  simp [Part.endFrame, Part.setReply, Part.modLink, Part.answered]

theorem Part.endFrame_done (p : Part) (l : Link) (out : List Byte) (k : Kind) (f : List Byte) :
    (p.done l k f).endFrame l out = p.answered l out (doneReply k f) := p.endFrame_setReply l out _

theorem Part.endFrame_refuse (p : Part) (l : Link) (out : List Byte) (k : Kind) (r : Reason) :
    (p.refuse l k r).endFrame l out = p.answered l out (refusedReply k r) := p.endFrame_setReply l out _

theorem Part.answered_twice (p : Part) (l : Link) (o o' : List Byte) (r r' : Reply) :
    (p.answered l o r).answered l o' r' = p.answered l o' r' := by
  simp [Part.answered]

/-! ### A frame that is taken -/

/-- A frame of a link that takes it: what the frame carries, then the end of the frame. -/
theorem Part.takeFrame_of_takes {s : State} {l : Link} (h : s.takes l) (n : Nat) (f : Part → Part) :
    s.part.takeFrame l n f = (f s.part).endFrame l ((s.part.links.get l).clockedOut n) := by
  obtain ⟨-, hh, hr⟩ := h
  unfold Part.takeFrame
  rw [hh]
  cases e : (s.part.links.get l).rx with
  | idle => rfl
  | inFrame b => rfl
  | ignoring => exact absurd e hr

/-- A request that a link takes with a payload that fits a frame. -/
theorem State.run_request {s : State} {l : Link} (h : s.takes l) (payload : List Byte) (f : Part → Part)
    (hp : payload.length ≤ 60) :
    s.run (fun p => p.request l payload f) =
      { s with part := (f s.part).endFrame l ((s.part.links.get l).clockedOut (payload.length + 3)) } := by
  rw [State.run_idle s _ h.1]
  unfold Part.request
  rw [Part.takeFrame_of_takes h]
  simp [Config.maxPayload, hp]

/-- The frame of a request has its payload and three bytes more. -/
theorem clocked_request {c : Instr} {l : Link} {k : Kind} {payload : List Byte} (h : requestOf c = some (l, k, payload)) :
    clocked c = payload.length + 3 := by
  cases c <;> simp_all [clocked, requestOf]

/-- A request whose judgement ends in a reply DONE. -/
theorem does_of_eq {c : Instr} {s : State} {l : Link} {k : Kind} {fields : List Byte} {q : Part} {f : Part → Part}
    {payload : List Byte} (h : s.takes l) (hp : payload.length ≤ 60) (hc : requestOf c = some (l, k, payload))
    (e : exec c s = .next (s.run (fun p => p.request l payload f))) (hf : f s.part = q.done l k fields) :
    Does c s l k fields q := by
  unfold Does State.clockedOut
  rw [clocked_request hc, e, State.run_request h payload f hp, hf, Part.endFrame_done]

/-- A request whose judgement ends in a refusal. -/
theorem refuses_of_eq {c : Instr} {s : State} {l : Link} {k : Kind} {r : Reason} {f : Part → Part}
    {payload : List Byte} (h : s.takes l) (hp : payload.length ≤ 60) (hc : requestOf c = some (l, k, payload))
    (e : exec c s = .next (s.run (fun p => p.request l payload f))) (hf : f s.part = s.part.refuse l k r) :
    Refuses c s l k r := by
  unfold Refuses State.clockedOut
  rw [clocked_request hc, e, State.run_request h payload f hp, hf, Part.endFrame_refuse]

/-! ### The two request sets -/

@[simp] theorem Part.onMotion_link (p : Part) (m : Motion) (k : Kind) (f : Motion → Part → Part) :
    p.onMotion m.link k f = f m p := by
  cases m <;> rfl

@[simp] theorem Part.onMotion_s (p : Part) (k : Kind) (f : Motion → Part → Part) :
    p.onMotion .s k f = p.refuse .s k .wrongLink := rfl

@[simp] theorem Part.onSupervisor_s (p : Part) (k : Kind) (f : Part → Part) : p.onSupervisor .s k f = f p := rfl

@[simp] theorem Part.onSupervisor_link (p : Part) (m : Motion) (k : Kind) (f : Part → Part) :
    p.onSupervisor m.link k f = p.refuse m.link k .wrongLink := by
  cases m <;> rfl

@[simp] theorem kindOf_code (k : Kind) : kindOf k.code = some k := by
  cases k <;> rfl

end Sys2Proof.Machine
end

