-- ==== Sys2Proof/WellFormed.lean ====
section
/-! DEFINITION. The checks a command meets to be one that a master or the part can give: a request's payload fits a frame
(R121), and a frame's last byte is cut short only when there is one. The machine itself is total: an ill-formed
command has the meaning its rules give (a payload above 60 bytes is a frame of wrong length, R124). -/

namespace Sys2Proof

/-- A payload of at most 60 bytes (R121). -/
def fitsFrame (payload : List Byte) : Bool := payload.length ≤ Config.maxPayload

/-- The checks of a command. -/
def Instr.wellFormed : Instr → Bool
  | .fullReset => true
  | .resetEnd _ _ _ => true
  | .frameMark _ _ => true
  | .busUv => true
  | .chopperBlocked => true
  | .chopperRestored => true
  | .brkOnTimeEnd => true
  | .valley _ _ _ _ => true
  | .overcurrent _ => true
  | .sampleLoss _ => true
  | .captureEnd _ => true
  | .offsetStep _ _ => true
  | .recapture _ => true
  | .computationComplete _ => true
  | .peakExhausted _ => true
  | .holdEntry _ => true
  | .setpointTimeout _ => true
  | .legEdge _ _ => true
  | .bfltActive _ => true
  | .bfltInactive _ => true
  | .tenFall => true
  | .tenRise => true
  | .frameStart _ => true
  | .frameError _ bytes lastWhole => lastWhole || !bytes.isEmpty
  | .nop _ p => fitsFrame p
  | .linkReset _ p => fitsFrame p
  | .status _ p => fitsFrame p
  | .events _ p => fitsFrame p
  | .read _ p => fitsFrame p
  | .ack _ p => fitsFrame p
  | .claim _ p => fitsFrame p
  | .release _ p => fitsFrame p
  | .map _ p => fitsFrame p
  | .unmap _ p => fitsFrame p
  | .revoke _ p => fitsFrame p
  | .paramSense _ c f => fitsFrame (c :: 1 :: f)
  | .paramTrack _ c f => fitsFrame (c :: 2 :: f)
  | .paramLoop _ c f => fitsFrame (c :: 3 :: f)
  | .paramLimits _ c f => fitsFrame (c :: 4 :: f)
  | .paramProtect _ c f => fitsFrame (c :: 5 :: f)
  | .paramHold _ c f => fitsFrame (c :: 6 :: f)
  | .ceiling _ p => fitsFrame p
  | .enable _ p => fitsFrame p
  | .disable _ p => fitsFrame p
  | .set _ i r => fitsFrame ((i ++ (0 : BitVec 1)) :: r)
  | .setEnd _ i r => fitsFrame ((i ++ (1 : BitVec 1)) :: r)
  | .discard _ p => fitsFrame p
  | .timing _ p => fitsFrame p
  | .slot _ p => fitsFrame p
  | .bus _ p => fitsFrame p
  | .budget _ p => fitsFrame p
  | .classes _ p => fitsFrame p
  | .withdraw _ p => fitsFrame p
  | .restore _ p => fitsFrame p
  | .edgeClear _ p => fitsFrame p
  | .ignoredFrameEnd _ => true

end Sys2Proof
end

