-- ==== Sys2Proof/Tests/Slice0.lean ====
section
/-! SUPPORT. Tests: the checks of WellFormed on ill-formed commands, worked cases of the manual on small states, and, for every
statement with hypotheses, a state and operands that meet them, clause by clause. -/

namespace Sys2Proof.Tests

open Sys2Proof.Machine

/-! ### States to test on -/

/-- A machine with nothing due and nothing waiting. -/
def idle (p : Part) : State := { part := p, due := [], pending := [] }

/-- The part after a reset that has ended with TEN high. -/
def base : Part := .afterReset false

/-- The part after a command, on a machine with nothing waiting. -/
def after (c : Instr) (s : State) : State :=
  match exec c s with
  | .next t => t
  | .fault _ => s
  | .refused _ => s

/-- The reply buffer of link `l`. -/
def replyOf (s : State) (l : Link) : Reply := (s.part.links.get l).reply

/-- Channel `c` of `p` in state `st`. -/
def inState (p : Part) (c : Channel) (st : ChState) : Part := p.modCtx c (fun x => { x with state := st })

/-- The gantry of 8.8 and 1.11: Link A holds CH1 to CH3 with CH1 and CH2 in slot 0 and CH3 in slot 1, Link B holds CH0 in its slot
0; the groups of CH1 and CH2 are loaded, the budget is set, Vdc stands at the least value that lets ENABLE be done, and a frame
mark has fallen. -/
def gantry : Part :=
  let m : Marks := ⟨true, true, true, true, true, true⟩
  let p := { base with
    binding := { holders := ⟨some .b, some .a, some .a, some .a, none, none⟩
                 maps := ⟨⟨some ⟨⟨1, false⟩, some ⟨2, true⟩⟩, some ⟨⟨3, false⟩, none⟩, none, none⟩,
                          ⟨some ⟨⟨0, false⟩, none⟩, none, none, none⟩⟩
                 toggles := ⟨false, false⟩ }
    bus := { base.bus with budgetSet := true, vdc := 4200, gv := 576 }
    carrier := { base.carrier with marked := true } }
  (p.modCtx 1 (fun x => { x with marks := m })).modCtx 2 (fun x => { x with marks := m })

/-- The gantry with CH1 and CH2 in `st`. -/
def pair (st : ChState) : Part := inState (inState gantry 1 st) 2 st

/-- A computation in flight with the inputs of reset, in state `st`. -/
def flight (st : ChState) : Flight := { (gantry.flightOf 1 none) with state := st }

/-- A fresh setpoint. -/
def fresh : Setpoint := { idRef := 5, iqRef := -32767, theta := 65535, dTheta := -32768, peak := true, fresh := true }

theorem gantry_sound : gantry.bindingSound := by
  refine ⟨by decide +kernel, ?_, by decide +kernel⟩
  intro m; cases m <;> decide +kernel

theorem pair_sound (st : ChState) : (pair st).bindingSound := by
  refine ⟨by cases st <;> decide +kernel, ?_, by cases st <;> decide +kernel⟩
  intro m; cases m <;> cases st <;> decide +kernel

theorem takes_idle (p : Part) (l : Link) (h : p.held = false) (h' : (p.links.get l).rx = .idle) : (idle p).takes l :=
  ⟨rfl, h, by show (p.links.get l).rx ≠ .ignoring; rw [h']; decide⟩

/-- The links of the gantry take requests. -/
theorem takes_pair (st : ChState) (l : Link) : (idle (pair st)).takes l :=
  takes_idle _ _ rfl (by cases l <;> rfl)

theorem takes_gantry (l : Link) : (idle gantry).takes l := takes_idle _ _ rfl (by cases l <;> rfl)

/-! ### WellFormed: each check refuses an ill-formed command -/

/-- A payload one byte too long for a frame. -/
def tooLong : List Byte := List.replicate 61 0

theorem test_wellFormed_payloads :
    [Instr.nop .a tooLong, .linkReset .a tooLong, .status .b tooLong, .events .s tooLong, .read .a tooLong, .ack .s tooLong,
     .claim .a tooLong, .release .b tooLong, .map .a tooLong, .unmap .a tooLong, .revoke .s tooLong, .ceiling .s tooLong,
     .enable .a tooLong, .disable .b tooLong, .discard .a tooLong, .timing .s tooLong, .slot .s tooLong, .bus .s tooLong,
     .budget .s tooLong, .classes .s tooLong, .withdraw .s tooLong, .restore .s tooLong, .edgeClear .s tooLong].map
      Instr.wellFormed = List.replicate 23 false := by decide +kernel

theorem test_wellFormed_params_and_records :
    [Instr.paramSense .a 0 (List.replicate 59 0), .paramTrack .a 0 (List.replicate 59 0), .paramLoop .a 0 (List.replicate 59 0),
     .paramLimits .a 0 (List.replicate 59 0), .paramProtect .a 0 (List.replicate 59 0), .paramHold .a 0 (List.replicate 59 0),
     .set .a 0 (List.replicate 60 0), .setEnd .a 0 (List.replicate 60 0)].map Instr.wellFormed = List.replicate 8 false := by
  decide +kernel

theorem test_wellFormed_partial_byte : Instr.wellFormed (.frameError .a [] false) = false := rfl

theorem test_wellFormed_accepts :
    [Instr.nop .a (List.replicate 60 0), .paramHold .b 0 (List.replicate 58 0), .setEnd .a 0 (List.replicate 59 0),
     .frameError .s [] true, .fullReset, .tenFall].all Instr.wellFormed = true := by decide +kernel

/-! ### Decoding and reset -/

theorem test_no_word_spells_a_command (n w : Nat) : decodeTableWord n w = none := rfl

theorem test_fetch_word_changes_nothing (s : State) (n w : Nat) : s.withFetchWord n w = s := rfl

theorem test_reset_reply_crc : Reply.afterReset = Reply.form .empty [] := by decide +kernel

theorem test_reset_idles : step State.reset = .next State.reset := by rfl

/-! ### Worked cases of the manual -/

/-- 7.3 and 12.1: the three-byte NOP and its four-byte reply. -/
theorem test_nop_frame :
    (replyOf (after (.frameError .a [0x00, 0x00, 0xB8] true) (idle base)) .a).bytes =
      [0x80, 0x01, 0x00, crc8 [0x80, 0x01, 0x00]] := by decide +kernel

/-- 8.8, steps 1 to 3. -/
theorem test_claims :
    replyOf (after (.claim .a [0x06]) (idle base)) .a = .form .done [0x10, 0, 1, 1, 0, 0, 0] ∧
    replyOf (after (.claim .b [0x05]) (after (.claim .a [0x06]) (idle base))) .b = .form .refused [0x10, 4, 0, 0, 2, 1] ∧
    replyOf (after (.claim .b [0x01]) (after (.claim .a [0x06]) (idle base))) .b = .form .done [0x10, 2, 1, 1, 0, 0, 0] := by
  decide +kernel

/-- 8.8, steps 5 and 6. -/
theorem test_mapped_channels_stay :
    replyOf (after (.map .a [2, 2, 0]) (idle gantry)) .a = .form .refused [0x12, 5] ∧
    replyOf (after (.release .a [0x04]) (idle gantry)) .a = .form .refused [0x11, 5] := by decide +kernel

/-- 8.8, step 8: the holders and the events that the revocation of CH2 leaves. -/
theorem test_revoke_gantry :
    replyOf (after (.revoke .s [0x04]) (idle (pair .run))) .s = .form .done [0x29, 2, 1, 0, 1, 0, 0] ∧
    ((after (.revoke .s [0x04]) (idle (pair .run))).part.links.a.queue.map (fun e => (e.kind, e.channel, e.detail))) =
      [(.stateEntered, some 2, .entered .off), (.stateEntered, some 1, .entered .off), (.claimRevoked, some 2, .none)] := by
  decide +kernel

/-- 10.8, steps 1 and 4: LIMITS through the clamp order, and a CEILING whose Icont ceiling is cut to the Ipk ceiling. -/
theorem test_limits_and_ceiling :
    replyOf (after (.paramLimits .b 0 (put16 6000 ++ put16 5000 ++ put16 9000 ++ put16 40000 ++ put16 800)) (idle gantry)) .b =
      .form .done ([0x14, 0, 4] ++ put16 6000 ++ put16 6000 ++ put16 6000 ++ put16 32767 ++ put16 800 ++ [0x0A] ++ put16 0 ++
        put16 32767 ++ put16 32767) ∧
    replyOf (after (.ceiling .s (0 :: put16 5000 ++ put16 3500)) (idle (gantry.modCtx 0 (fun x =>
        { x with limitsG := ⟨4000, 9000, 3000, 31130, 800⟩, allowance := 800 })))) .s =
      .form .done ([0x23, 0] ++ put16 3500 ++ put16 3500 ++ put16 3500 ++ put16 3500 ++ put16 3000 ++ put16 31130 ++ put16 800 ++
        put16 800) := by decide +kernel

/-- R26: the three written periods of its text, and a divider of 0. -/
theorem test_timing_fields :
    timingFields (put16 10000 ++ put16 601 ++ [0]) = some ⟨9996, 600, 1⟩ ∧
    timingFields (put16 100 ++ put16 0 ++ [17]) = some ⟨2400, 0, 16⟩ ∧
    timingFields (put16 30000 ++ put16 200 ++ [1]) = some ⟨24000, 200, 1⟩ := by decide +kernel

/-- R165: the clamps that its text gives. -/
theorem test_param_clamps :
    senseFields [0, 0, 0, 1, 0, 8] = some ⟨1, 1, 16⟩ ∧ protectFields (put16 2000 ++ put16 2500 ++ [0, 16]) = some ⟨2000, 2000, 1, 15⟩ ∧
    trackFields (200 :: put16 5000 ++ [0, 0]) = some ⟨63, 4095, 1, 0⟩ ∧ holdFields (0 :: put16 0 ++ put16 0) = some ⟨1, 1, 1⟩ := by
  decide +kernel

/-- R149 and R150: nine PEAK records are refused with BATCH_FULL, and BATCH_LOST is sent though no batch was open. -/
theorem test_batch_full :
    replyOf (after (.set .a 0 (List.replicate 9 0x20)) (idle gantry)) .a = .form .refused [0x17, 13] ∧
    (after (.set .a 0 (List.replicate 9 0x20)) (idle gantry)).part.links.a.queue.map (fun e => e.kind) = [.batchLost] := by
  decide +kernel

/-- R153 and R154: an empty batch flips the toggle; three PEAK records that no record follows are one entry of count 3. -/
theorem test_deliveries :
    replyOf (after (.setEnd .a 127 []) (idle gantry)) .a = .form .done [0x17, 1, 0, 1, 0] ∧
    (after (.setEnd .a 0 [0x20, 0x20, 0x20]) (idle gantry)).part.links.a.queue.map (fun e => (e.kind, e.count)) =
      [(.prefixDropped, 3)] := by decide +kernel

/-- R4 and R5: the pair enters CAPTURE, with two events on Link A. -/
theorem test_enable_pair :
    replyOf (after (.enable .a [0]) (idle gantry)) .a = .form .done [0x15] ∧
    (after (.enable .a [0]) (idle gantry)).part.stateOf 1 = .capture ∧
    (after (.enable .a [0]) (idle gantry)).part.stateOf 2 = .capture ∧
    (after (.enable .a [0]) (idle gantry)).part.links.a.queue.map (fun e => e.channel) = [some 1, some 2] := by decide +kernel

/-- R118: WITHDRAW of one member while the pair runs gives its partner PARTNER, and naming both gives none. -/
theorem test_withdraw_pair :
    replyOf (after (.withdraw .s [0x02]) (idle (pair .run))) .s = .form .done [0x26, 0x02, 0, 0x02] ∧
    (after (.withdraw .s [0x02]) (idle (pair .run))).part.stateOf 2 = .fault ∧
    ((after (.withdraw .s [0x02]) (idle (pair .run))).part.causesOf 2).partner = true ∧
    (after (.withdraw .s [0x06]) (idle (pair .run))).part.causesOf 2 = .empty := by decide +kernel

/-- R110 and R114: TEN falls and rises; EDGE_CLEAR is refused before and done after. -/
theorem test_ten_drop :
    replyOf (after (.edgeClear .s []) (after .tenFall (idle (pair .run)))) .s = .form .refused [0x28, 15] ∧
    replyOf (after (.edgeClear .s []) (after .tenRise (after .tenFall (idle (pair .run))))) .s = .form .done [0x28, 0, 0, 0] := by
  decide +kernel

/-- R183: an ACK before a STATUS clears nothing, and after it takes the channel to OFF; BRIDGE stays while the line is active. -/
theorem test_ack_after_status :
    (after (.ack .a [1]) (after (.bfltInactive 3) (after (.bfltActive 3) (idle gantry)))).part.stateOf 3 = .fault ∧
    (after (.ack .a [1]) (after (.bfltInactive 3) (after (.status .a []) (after (.bfltActive 3) (idle gantry))))).part.stateOf 3 =
      .off ∧
    (after (.ack .a [1]) (after (.status .a []) (after (.bfltActive 3) (idle gantry)))).part.stateOf 3 = .fault := by
  decide +kernel

/-- R68: the sine and the cosine at the quarter turns and at an eighth. -/
theorem test_sine_values :
    [0, 8192, 16384, 32768, 49152].map (fun n => (sinSteps n, sinSteps (n + 16384))) =
      [(0, 32767), (23170, 23170), (32767, 0), (0, -32767), (-32767, 0)] := by decide +kernel

/-- R66 and R76: halves are rounded away from zero, and truncation goes toward zero. -/
theorem test_rounding : roundDiv 5 2 = 3 ∧ roundDiv (-5) 2 = -3 ∧ truncDiv (-7) 2 = -3 ∧ isqrt 99 = 9 ∧ isqrt 100 = 10 := by
  decide +kernel

/-- The flight of 4.11. -/
def worked : Flight :=
  { state := .run, setpoint := some ⟨0, 1200, 0, 0, false, true⟩, idRef := 0, iqRef := 0, theta := 0, dTheta := 0, peak := false,
    intD := -20, intQ := 900, flags := .clear, lastVd := 0, lastVq := 0, meas := .zero, allowance := 500, stale := 0, hold := 0,
    loopG := ⟨2048, 6554, 2048, 6554⟩, limitsG := ⟨2000, 4000, 1000, 31130, 500⟩, holdG := ⟨8, 100, 800⟩, reversed := false,
    scale := 4096, vdc := 6000, period := 12000, blank := 300, sample := some (1000, 250) }

/-- 4.11: the results of the worked computation. -/
theorem test_worked_computation :
    compute worked =
      { intake := { fresh := true, idRef := 0, iqRef := 1200, theta := 0, dTheta := 0, peak := false, stale := 0, hold := 0 }
        shapedId := 0, iqEff := 1200, allowance := 500, spends := false, meas := ⟨1000, 250, 1000, 866⟩
        pi := ⟨-120, 933, -620, 1100⟩, limited := ⟨-620, 1100, .clear⟩, onTimes := ⟨4140, 7906, 4094⟩, demand := 1980
        power := 498 } := by decide +kernel

/-- 4.11 and 12.8: the bytes of its computation record. -/
theorem test_worked_record :
    (recordOf worked .run ⟨4140, 7906, 4094⟩ 1980).bytes =
      [2, 1] ++ [1000, 250, 1000, 866, 0, 1200, -620, 1100].flatMap putS16 ++ [4140, 7906, 4094].flatMap put16 ++
        putS32 1980 ++ putS32 498 ++ [4096, 500, 0].flatMap put16 := by decide +kernel

/-- 2.9: the channel in RUN of 4.11 in carrier slot 3, W at 300 ticks. -/
def switching : Part :=
  { inState base 3 .run with carrier := { base.carrier with
      marked := true, blank := 300, drives := base.carrier.drives.set 3 { Drive.afterReset with onTimes := ⟨4140, 7906, 4094⟩ } } }

/-- 5.9: the limits of the worked reviews, and the entries of the first. -/
def budget : Bus := { Bus.afterReset with feed := 40000, regen := 10000, cap := 15000, cool := 5000, hmax := 2000000 }

/-- The entries of 5.9: the spindle, the gantry and three axes. -/
def cutting : List Entry :=
  [⟨[0], 36000, 2, 5000⟩, ⟨[1, 2], 8200, 0, 2000⟩, ⟨[3], 3000, 0, 1000⟩, ⟨[4], -2000, 2, 0⟩, ⟨[5], 800, 1, 200⟩]

/-- 5.9: the scales of the review. -/
theorem test_worked_review :
    conditionOf budget cutting 15000 = .motoringLimited ∧
    cutting.map (entryScale budget cutting 15000) = [3413, 4096, 4096, 4096, 4096] := by decide +kernel

/-- 2.9: the verdicts on the samples of CH0 to CH5 while CH3 switches. -/
theorem test_worked_judgement : channels.map switching.judge = [true, false, false, true, false, false] := by decide +kernel

/-! ### Witnesses: the hypotheses of each statement are met, clause by clause -/

/-- The machine `p` with steps due. -/
def dueOn (p : Part) (ds : List Due) : State := { part := p, due := ds, pending := [] }

/-- The part with CH1 in `st` and what `f` makes of its context, its sense unit and its drive. -/
def ch1 (st : ChState) (f : Context → Context) (g : Sense → Sense) (h : Drive → Drive) : Part :=
  (((inState gantry 1 st).modCtx 1 f).modSense 1 g).modDrive 1 h

theorem witness_DueStepsComeFirst :
    (idle base).pending = [] ∧ (idle base).due = [] ∧ dueRowOf (.nop .a []) = none ∧ (Instr.nop .a [] ≠ .fullReset) ∧
    (∀ ds n raw, (dueOn base [.busUv []]).due ≠ ds ++ [.busOperation (n + 1) raw]) ∧
    (dueRowOf (.frameMark 4095 0) = none ∧ ¬comesAtMark (dueOn base [.busOperation 1 0]) (.frameMark 4095 0) ∧
      ¬comesAtMark (dueOn base [.busOperation 1 0]) (.valley 1 0 0 .startFirst)) ∧
    (comesAtMark (dueOn base [.overcurrent 0, .busOperation 1 4095]) (.nop .a []) ∧
      comesAtMark (dueOn base [.overcurrent 0, .busOperation 1 4095]) (.valley 0 0 0 .startFirst) ∧
      (dueOn base [.overcurrent 0, .busOperation 1 4095]).due = [.overcurrent 0] ++ [.busOperation (0 + 1) 4095]) := by
  refine ⟨rfl, rfl, rfl, by simp, ?_, ⟨rfl, fun h => h, ?_⟩, rfl, ?_, rfl⟩
  · intro ds n raw h
    have e := congrArg List.getLast? h
    simp [dueOn] at e
  · show ¬(_ = _); decide
  · show _ = _; decide

theorem witness_ResetHoldsAndEnds :
    (idle (.afterReset true)).due = [] ∧ (idle (.afterReset true)).part = .afterReset true ∧ Instr.tenRise ≠ .fullReset ∧
    (∀ t b l, Instr.tenRise ≠ .resetEnd t b l) ∧ (idle (.afterReset true)).part.held = true ∧
    ∀ c, (idle (.afterReset true)).part.torque.bflt.get c = false :=
  ⟨rfl, rfl, by simp, by simp, rfl, by decide⟩

theorem witness_ArithmeticWords :
    (0 < 2 ∧ (2 * (roundDiv (-5) 2 * 2 - -5)).natAbs = 2) ∧ (2 ^ 64 - 1 < 2 ^ 64) ∧
    ((-3 : Int) ≤ 3 ∧ (-4 : Int) < -3 ∧ (3 : Int) < 4 ∧ (-3 : Int) ≤ -3) := by decide +kernel

theorem witness_FrameMarkOpensPeriod : (idle gantry).due = [] ∧ (idle gantry).part.held = false := ⟨rfl, rfl⟩

theorem witness_ValleyTakesItsSteps :
    ((idle base).due = [] ∧ (idle base).part.held = false ∧ (idle base).part.carrier.marked = false) ∧
    ((idle switching).part.held = false ∧ (idle switching).part.carrier.marked = true ∧
      ((idle switching).part.ctx.get 3).flight = none ∧ (idle switching).part.carrier.table.toList.Nodup) ∧
    ((pair .run).bindingSound ∧ ((pair .run).stateOf 2).bridgeOn = true ∧
      ∀ m k e y, ((pair .run).binding.maps.get m).get k = some e → y ∈ e.members → y.ch = 2 → true = y.reversed) ∧
    (12000 = (⟨0, 12000, 11999⟩ : OnTimes).b ∧
      (legsAtValley 12000 ⟨0, 12000, 11999⟩) = ⟨⟨.low, .none⟩, ⟨.high, .none⟩, ⟨.low, .none⟩⟩) := by
  refine ⟨by decide +kernel, by decide +kernel, ⟨pair_sound _, rfl, ?_⟩, rfl, rfl⟩
  intro m k e y h
  have all : ∀ m k, ∀ e ∈ ((pair .run).binding.maps.get m).get k, ∀ y ∈ e.members, y.ch = 2 → true = y.reversed := by
    intro m; cases m <;> decide +kernel
  exact all m k e h y

theorem witness_SampleJudgedByEdges :
    switching.carrier.table.toList.Nodup ∧ switching.carrier.table.get 5 = 5 ∧ switching.judge 5 = false ∧
    switching.judge 0 = true := by decide +kernel

theorem witness_CarrierEventsMoveOutputs :
    (idle switching).due = [] ∧ (idle switching).part.stateOf 3 = .run ∧ ((idle switching).part.stateOf 0).bridgeOn = false ∧
    (0 < 4140 ∧ 4140 < (idle switching).part.carrier.period) ∧
    (idle base).part.bus.brkOnTime < (idle base).part.carrier.period ∧
    ∃ p : Part, p.carrier.period ≤ p.bus.brkOnTime :=
  ⟨rfl, rfl, rfl, by decide +kernel, by decide +kernel,
    ⟨{ base with bus := { base.bus with brkOnTime := 12000 } }, by decide +kernel⟩⟩

theorem witness_SenseUnitHandlesSample :
    (pair .run).stateOf 1 = .run ∧ (pair .hold).stateOf 1 = .hold ∧ (pair .capture).stateOf 1 = .capture ∧
    (pair .off).stateOf 1 = .off ∧ 0 < ((ch1 .off id (fun u => { u with quiet := 1 }) id).sense.get 1).quiet ∧
    ((pair .off).sense.get 1).quiet = 0 ∧
    (((2056 : Int) - ((pair .off).sense.get 1).offA).natAbs ≤ ((pair .off).ctx.get 1).trackG.wt) ∧
    ¬(((2057 : Int) - ((pair .off).sense.get 1).offA).natAbs ≤ ((pair .off).ctx.get 1).trackG.wt) := by decide +kernel

/-- The sums of a capture whose offsets lie at the bound of 2048 + Ro, and one above it. -/
theorem witness_OffsetsCapturedAndTracked :
    ((dueOn (pair .capture) [.captureEnd 1]).due = .captureEnd 1 :: [] ∧
    (dueOn (pair .capture) [.captureEnd 1]).part.stateOf 1 = .capture ∧ ((pair .capture).ctx.get 1).senseG.ro = 64 ∧
    ((((2112 * 64 + 32) / 64 : Nat) : Int) - 2048).natAbs ≤ 64 ∧ ¬((((2112 * 64 + 32 + 32) / 64 : Nat) : Int) - 2048).natAbs ≤ 64) ∧
    (dueOn (pair .off) [.offsetStep 1 .a]).due = .offsetStep 1 .a :: [] ∧ 0 < ((pair .off).ctx.get 1).trackG.bt ∧
    ((256 : Nat) : Int) ≤ ((ch1 .off id (fun u => { u with bucketA := 256, bucketB := -256 }) id).sense.get 1).bucketA ∧
    ((ch1 .off id (fun u => { u with bucketA := 256, bucketB := -256 }) id).sense.get 1).bucketB ≤ -((256 : Nat) : Int) ∧
    (dueOn (pair .off) [.recapture 1 1984 2112]).due = .recapture 1 1984 2112 :: [] ∧
    ((((1984 : Int) - 2048).natAbs ≤ 64 ∧ ((2112 : Int) - 2048).natAbs ≤ 64) ∧ ¬(((2113 : Int) - 2048).natAbs ≤ 64)) := by
  decide +kernel

theorem witness_DueRowsActWhenDue :
    (dueOn gantry [.busUv [1, 2]]).due = .busUv [1, 2] :: [] ∧ (dueOn gantry [.chopperBlocked]).due = .chopperBlocked :: [] ∧
    (dueOn gantry [.chopperRestored]).due = .chopperRestored :: [] ∧ (dueOn gantry [.overcurrent 1]).due = .overcurrent 1 :: [] ∧
    (dueOn gantry [.sampleLoss 1]).due = .sampleLoss 1 :: [] ∧
    (dueOn gantry [.setpointTimeout 1, .publish 1]).due = .setpointTimeout 1 :: [.publish 1] ∧
    (dueOn gantry [.peakExhausted 1, .decide 1]).due = .peakExhausted 1 :: [.decide 1] ∧
    ((dueOn (pair .run) [.holdEntry 1, .publish 1]).due = .holdEntry 1 :: [.publish 1] ∧ (pair .run).stateOf 1 = .run) ∧
    (dueRowOf (.overcurrent 1) = some (.overcurrent 1) ∧ (idle gantry).due = [] ∧
      (dueOn gantry [.sampleLoss 1, .overcurrent 1]).due = .sampleLoss 1 :: [.overcurrent 1] ∧
      (Due.overcurrent 1).row = some (.overcurrent 1) ∧ (Due.sampleLoss 1).row ≠ some (.overcurrent 1) ∧
      (pair .hold).stateOf 1 ≠ .run) :=
  ⟨rfl, rfl, rfl, rfl, rfl, rfl, rfl, ⟨rfl, rfl⟩, rfl, rfl, rfl, rfl, by decide, by decide⟩

/-- The pair in RUN with OV below UV, and a measurement of 4500 dV between them. -/
def crossed : Part := { pair .run with bus := { gantry.bus with ov := 4499, uv := 4501, nuv := 1 } }

theorem witness_BusOperationInThreeParts :
    channels.filter (fun c => (crossed.stateOf c).active) = [1, 2] ∧ measuredVdc 2000 crossed.bus.gv = 4500 ∧
    crossed.bus.ov < 4500 ∧ crossed.bus.nuv ≤ 1 ∧ (crossed.stateOf 1).active = true := by decide +kernel

/-- R89: a measurement both above OV and below UV leaves every active channel both causes. -/
theorem test_both_bus_checks :
    (let p := (crossed.busOperation 2000).1.settle (crossed.busOperation 2000).2
     ((p.causesOf 1).busOv, (p.causesOf 1).busUv, (p.causesOf 1).partner) = (true, true, false) ∧
     ((p.causesOf 2).busOv, (p.causesOf 2).busUv, (p.causesOf 2).partner) = (true, true, true)) := by decide +kernel

/-- R102: a scale below 4096 and one at 4096, of a channel in OFF and of one in RUN. -/
theorem witness_ReviewWritesBusUnit :
    ((pair .run).stateOf 0).bridgeOn = false ∧ ((pair .run).stateOf 1).bridgeOn = true ∧ (pair .run).bus.scale.get 1 = 4096 := by
  decide +kernel

theorem witness_ReviewEntriesFormed : (pair .run).bindingSound ∧ (pair .run).entries ≠ [] := ⟨pair_sound _, by decide +kernel⟩

theorem witness_ScalesFollowGrants :
    ((40000 : Int) < 48000 - 2000 ∧ conditionOf budget cutting 15000 = .motoringLimited) ∧
    (((10000 : Int) + 15000 < 27000 ∧ conditionOf budget [⟨[0], -27000, 2, 5000⟩] 15000 = .regenLimited)) ∧
    conditionOf budget [] 15000 = .normal ∧ (0 < (⟨36000, 5000, 2⟩ : Share).d) ∧
    ((5 : Nat) < ([(⟨36000, 5000, 2⟩ : Share)].map (fun x => min x.d x.m)).sum) ∧
    ([(⟨36000, 5000, 2⟩ : Share)].map (fun x => min x.d x.m)).sum ≤ 5000 := by decide +kernel

/-- A computation in flight on CH1 of a pair in `st`. -/
def computing (st : ChState) (f : Flight) : State := idle (ch1 st (fun x => { x with flight := some f }) id id)

theorem witness_CompletionWritesResults :
    ((idle gantry).part.ctx.get 1).flight = none ∧
    ((computing .fault (flight .run)).part.ctx.get 1).flight = some (flight .run) ∧
    ((computing .fault (flight .run)).part.stateOf 1).bridgeOn = false ∧
    ((computing .run (flight .run)).part.stateOf 1).bridgeOn = true ∧
    (let r := compute { flight .run with setpoint := some ⟨0, 5, 0, 0, true, true⟩, allowance := 1,
                                         limitsG := ⟨4, 5, 0, 31130, 9⟩ }
     r.spends = true ∧ r.allowance = 0) ∧
    (let f := { flight .hold with hold := 799 }
     ¬((compute f).spends = true ∧ (compute f).allowance = 0) ∧ f.state = .hold ∧ (compute f).intake.fresh = false ∧
       f.holdG.th ≤ (compute f).intake.hold) ∧
    (let f := { flight .run with stale := 7 }
     ¬((compute f).spends = true ∧ (compute f).allowance = 0) ∧ f.state ≠ .hold ∧ (compute f).intake.fresh = false ∧
       f.holdG.ts ≤ (compute f).intake.stale) ∧
    (let f := { flight .hold with setpoint := some fresh, limitsG := ⟨32767, 32767, 0, 31130, 9⟩ }
     ¬((compute f).spends = true ∧ (compute f).allowance = 0) ∧ f.state = .hold ∧ (compute f).intake.fresh = true) ∧
    (let f := { flight .run with stale := 6 }
     ¬((compute f).spends = true ∧ (compute f).allowance = 0) ∧ f.state ≠ .hold ∧ (compute f).intake.stale < f.holdG.ts) ∧
    (let f := { flight .hold with hold := 798 }
     f.state = .hold ∧ (intake f).fresh = false ∧ (intake f).hold < f.holdG.th) ∧
    (((computing .hold (flight .hold)).part.ctx.get 1).flight = some (flight .hold) ∧
      ((computing .hold (flight .hold)).part.ctx.get 1).state = .hold) := by
  decide +kernel

theorem witness_SetpointIntake :
    ((({ flight .run with setpoint := some fresh }).setpoint = some fresh) ∧ fresh.fresh = true) ∧
    (∀ x, (flight .hold).setpoint = some x → x.fresh = false) ∧ (flight .hold).state = .hold ∧ (flight .run).state ≠ .hold ∧
    (((flight .hold).holdG.rs : Int) < 101) ∧ ((-101 : Int) < -((flight .hold).holdG.rs : Int)) ∧
    ((-((flight .hold).holdG.rs : Int)) ≤ -100 ∧ (100 : Int) ≤ (flight .hold).holdG.rs) := by
  refine ⟨⟨rfl, rfl⟩, ?_, rfl, by decide, by decide +kernel, by decide +kernel, by decide +kernel⟩
  intro x h
  have : (flight .hold).setpoint = none := by decide +kernel
  rw [this] at h; cases h

theorem witness_EffectiveReferenceWithinLimits :
    worked.scale ≤ 4096 ∧ worked.limitsG.icont ≤ worked.limitsG.ipk ∧
    ((effectiveIq worked (intake worked)).natAbs ≤ worked.limitsG.icont) ∧
    (let f := { worked with setpoint := some ⟨0, 2001, 0, 0, true, true⟩ }
     f.limitsG.icont < (effectiveIq f (intake f)).natAbs) := by decide +kernel

theorem witness_MeasurementOfSample : worked.sample = some (1000, 250) := rfl

theorem witness_PiStage : (flight .run).sample = none ∧ worked.sample.isSome = true := by decide +kernel

theorem witness_VoltageLimit :
    max worked.vdc 100 * 18919 * worked.limitsG.mlim / 2 ^ 30 = 3291 ∧ 3291 < 2 ^ 32 ∧
    (3291 : Int) ≤ (compute { worked with intD := 3291, loopG := ⟨0, 0, 0, 0⟩ }).pi.vd := by decide +kernel

theorem witness_OutputAngleAndPark : (intake worked).dTheta = 0 := by decide +kernel

theorem witness_OnTimesAndPower : 2 * worked.blank ≤ worked.period ∧ 2 * 600 ≤ 1200 := by decide +kernel

/-- An entry of count `n` of a kind with no channel and no detail. -/
def plainEntry (k : EventKind) (n : Nat) : QueueEntry := { kind := k, channel := none, detail := .none, count := n, stamp := 0 }

/-- An interface whose queue holds `n` entries, the newest BATCH_LOST with a count of 255. -/
def queueOf (n : Nat) : LinkIf :=
  ({ LinkIf.afterReset with queue := List.replicate (n - 1) (plainEntry .torqueDrop 1) ++ [plainEntry .batchLost 255] }).follow

theorem witness_EventsCoalesceAppendOrDrop :
    (∃ es e, (queueOf 12).queue = es ++ [e] ∧ e.kind = .batchLost ∧ e.channel = none ∧ e.detail = .none) ∧
    (∀ es e, (queueOf 12).queue = es ++ [e] → ¬(e.kind = .torqueDrop ∧ e.channel = none ∧ e.detail = .none)) ∧
    (queueOf 11).queue.length < 12 ∧ 12 ≤ (queueOf 12).queue.length ∧ (queueOf 12).queueSound ∧
    gantry.binding.holders.get 4 = none ∧ gantry.binding.holders.get 1 = some .a := by
  refine ⟨⟨_, _, rfl, rfl, rfl, rfl⟩, ?_, by decide +kernel, by decide +kernel, ⟨by decide +kernel, by decide +kernel,
    by decide +kernel⟩, rfl, rfl⟩
  intro es e h
  have h' : (queueOf 12).queue.getLast? = some e := by rw [h]; simp
  have : e = plainEntry .batchLost 255 := by
    have : (queueOf 12).queue.getLast? = some (plainEntry .batchLost 255) := by decide +kernel
    rw [this] at h'; exact (Option.some.inj h').symm
  simp [this, plainEntry]

theorem witness_LeavingStatesClears :
    ((pair .run).ctx.get 1).state = .run ∧ ((pair .hold).ctx.get 1).state = .hold ∧ ((pair .capture).ctx.get 1).state = .capture ∧
    ((pair .off).ctx.get 1).state = .off ∧ ((pair .fault).ctx.get 1).state = .fault ∧
    ((pair .safeOff).ctx.get 1).state = .safeOff := ⟨rfl, rfl, rfl, rfl, rfl, rfl⟩

theorem witness_RaiseLatchesAndFaults :
    (pair .fault).stateOf 1 = .fault ∧ (pair .safeOff).stateOf 1 = .safeOff ∧ (pair .off).stateOf 1 = .off ∧
    (pair .off).bindingSound ∧
    (∀ m k y z, ((pair .off).binding.maps.get m).get k = some ⟨y, some z⟩ →
      (y.ch = 1 → ((pair .off).stateOf z.ch).active = false) ∧ (z.ch = 1 → ((pair .off).stateOf y.ch).active = false)) ∧
    (pair .run).bindingSound ∧ ((pair .run).binding.maps.get .a).get 0 = some ⟨⟨1, false⟩, some ⟨2, true⟩⟩ ∧
    ((pair .run).stateOf 2).active = true := by
  refine ⟨rfl, rfl, rfl, pair_sound _, ?_, pair_sound _, rfl, rfl⟩
  intro m k y z _
  have h : ∀ c, ((pair .off).stateOf c).active = false := by decide +kernel
  exact ⟨fun _ => h _, fun _ => h _⟩

theorem witness_LineEdgesAct :
    (idle gantry).due = [] ∧ (idle gantry).part.held = false ∧ (idle gantry).part.torque.bflt.get 5 = false ∧
    (after (.bfltActive 5) (idle gantry)).part.torque.bflt.get 5 = true ∧ (idle gantry).part.torque.ten = true ∧
    (after .tenFall (idle gantry)).part.torque.ten = false := by decide +kernel

theorem witness_FramesBeginAndIgnoredFramesEnd :
    ((idle gantry).part.links.get .a).rx = .idle ∧ ((after (.frameStart .a) (idle gantry)).part.links.get .a).rx ≠ .idle ∧
    ((after (.resetEnd true (.all false) ⟨true, false, true⟩) (idle (.afterReset true))).part.links.get .a).rx = .ignoring ∧
    requestOf (.nop .a tooLong) = some (.a, .nop, tooLong) ∧ ((idle gantry).part.links.get .a).rx ≠ .ignoring := by decide +kernel

/-- R122: after a reset a frame of three bytes receives the first three bytes of the reply EMPTY, which is 0x83, 0x00 and 0xAB, and a
frame of five receives it whole with 0x00 after it. -/
theorem test_data_out :
    ((after (.nop .a []) (after (.frameStart .a) (idle base))).part.links.get .a).lastOut = [0x83, 0x00, 0xAB] ∧
    ((after (.nop .a [1, 2]) (idle base)).part.links.get .a).lastOut = [0x83, 0x00, 0xAB, 0x00, 0x00] ∧
    ((after (.frameError .a [7] false) (idle base)).part.links.get .a).lastOut = [0x83] := by decide +kernel

theorem witness_FrameBytesSpellRequests :
    requestOf (.nop .b (List.replicate 60 7)) = some (.b, .nop, List.replicate 60 7) ∧ (List.replicate 60 (7 : Byte)).length ≤ 60 ∧
    requestOf (.setEnd .a 127 []) = some (.a, .set, [0xFF]) := by decide +kernel

theorem witness_RejectedFramesReplyFrameError :
    (idle gantry).takes .a ∧ ([0x00, 0x00] : List Byte).length < 3 ∧ (60 < (61 : Byte).toNat) ∧
    ([0x00, 0x01] : List Byte).length ≠ (1 : Byte).toNat + 2 ∧ (0x01 : Byte) ≠ crc8 [0x00, 0x00] ∧ (∀ k : Kind, k.code ≠ 0x06) :=
  ⟨takes_gantry _, by decide, by decide, by decide, by decide +kernel, by intro k; cases k <;> decide⟩

theorem witness_CrcOfFrames : (List.replicate 60 (0 : Byte)).length ≤ 60 ∧ [0x00, 0x00, 0xB8][(2 : Fin 3)]? = some (0xB8 : Byte) := by
  decide +kernel

theorem witness_WrongLinksAndStructuresRefused :
    (∀ l, (idle gantry).takes l) ∧ requestOf (.claim .s [0]) = some (.s, .claim, [0]) ∧ Kind.claim.inSetOf .s = false ∧
    Kind.bus.inSetOf .a = false ∧ Kind.read.inSetOf .a = true ∧ Kind.read.fitsLength [0, 0] = false ∧
    Kind.classes.fitsLength (List.replicate 28 0) = false ∧ Kind.read.fitsFirst .a 6 = false ∧ Kind.ack.fitsFirst .a 4 = false ∧
    Kind.ack.fitsFirst .s 64 = false ∧ Kind.claim.fitsFirst .a 64 = false ∧ Kind.enable.fitsFirst .a 4 = false ∧
    ((0 : Byte).toNat = 0 ∧ 6 < (7 : Byte).toNat ∧ Kind.param.inSetOf .a = true ∧ Kind.map.inSetOf .a = true ∧
      ([0, 0, 0, 6, 0] : List Byte)[3]? = some 6 ∧ ([0, 6, 0] : List Byte)[1]? = some 6 ∧ 6 ≤ (6 : Byte).toNat ∧
      Kind.classes.inSetOf .s = true ∧ ([0, 0, 0, 0, 6, 0, 0, 0] : List Byte)[4 * 1]? = some 6) :=
  ⟨takes_gantry, rfl, rfl, rfl, rfl, by decide, by decide, by decide, by decide, by decide, by decide, by decide, by decide⟩

/-- R148, R163: what only the bytes of a frame can spell, an unknown group, a PARAM cut short and a SET without a flag byte, is refused
with BAD_VALUE. -/
theorem test_structures_of_frame_bytes :
    ([(.param, [1, 7, 0, 0, 0, 0, 0]), (.param, [1]), (.param, []), (.set, [])] : List (Kind × List Byte)).map (fun x =>
      (replyOf (after (.frameError .a (frameBody x.1.code x.2 ++ [crc8 (frameBody x.1.code x.2)]) true) (idle gantry)) .a).payload) =
    [[0x14, 2], [0x14, 2], [0x14, 2], [0x17, 2]] := by decide +kernel

theorem witness_NopIsDone : (idle gantry).takes .s ∧ (List.replicate 60 (0 : Byte)).length ≤ 60 := ⟨takes_gantry _, by decide⟩

theorem witness_LinkResetClearsLink :
    (idle gantry).takes .a ∧ Link.a = Motion.link .a ∧ (idle gantry).takes .s ∧ ([0] : List Byte) ≠ [] :=
  ⟨takes_gantry _, rfl, takes_gantry _, by decide⟩

theorem witness_StatusReportsAndRecords : (idle gantry).takes .b ∧ Link.b = Motion.link .b ∧ (idle gantry).takes .s :=
  ⟨takes_gantry _, rfl, takes_gantry _⟩

theorem witness_ReadAndEventsAnswer :
    (idle gantry).takes .a ∧ (idle gantry).part.binding.holders.get 3 = some .a ∧
    (idle gantry).part.binding.holders.get 0 ≠ some .a ∧ (idle gantry).part.binding.holders.get 5 ≠ some .a :=
  ⟨takes_gantry _, rfl, by decide, by decide⟩

/-- The causes that an ACK of link `l` leaves, as the statement of ACK describes them. -/
def leftAfter (l : Link) (p : Part) (c : Channel) : CauseSet :=
  let h := fun x => (p.causesOf c).has x && (!(p.seenOf l c).has x || (decide (x = .bridge) && p.torque.bflt.get c))
  ⟨h .bridge, h .overcurrent, h .busOv, h .busUv, h .sampleLoss, h .offsetRange, h .setpointTimeout, h .partner⟩

theorem witness_AckClearsSeenCauses :
    (idle gantry).takes .a ∧ ((idle gantry).part.binding.maps.get .a).get 3 = none ∧
    ((idle gantry).part.binding.maps.get .a).get 0 = some ⟨⟨1, false⟩, some ⟨2, true⟩⟩ ∧ (63 : Byte).toNat < 64 ∧
    ∀ p c x, (leftAfter .a p c).has x =
      ((p.causesOf c).has x && (!(p.seenOf .a c).has x || (decide (x = .bridge) && p.torque.bflt.get c))) :=
  ⟨takes_gantry _, rfl, rfl, by decide, by intro p c x; cases x <;> rfl⟩

theorem witness_ClaimAndReleaseMoveHolders :
    (idle gantry).takes .b ∧ (63 : Byte).toNat < 64 ∧
    (∀ c ∈ namedChannels 0x31, gantry.binding.holders.get c = none ∨ gantry.binding.holders.get c = some .b) ∧
    (∃ c ∈ namedChannels 0x03, ∃ n, n ≠ Motion.b ∧ gantry.binding.holders.get c = some n) ∧
    (∃ c ∈ namedChannels 0x10, gantry.binding.holders.get c ≠ some .b) ∧
    (∃ c ∈ namedChannels 0x01, c ∈ gantry.mapChannels .a ++ gantry.mapChannels .b) ∧
    ((∀ c ∈ namedChannels 0x20, (after (.claim .b [0x20]) (idle gantry)).part.binding.holders.get c = some .b) ∧
      ∀ c ∈ namedChannels 0x20, c ∉ gantry.mapChannels .a ++ gantry.mapChannels .b) :=
  ⟨takes_gantry _, by decide, by decide +kernel, ⟨1, by decide, .a, by decide, rfl⟩, ⟨4, by decide, by decide⟩,
    ⟨0, by decide, by decide +kernel⟩, by decide +kernel, by decide +kernel⟩

/-- The gantry after Link A has claimed CH4 and CH5 too. -/
def claimed : State := after (.claim .a [0x30]) (idle gantry)

theorem takes_claimed (l : Link) : claimed.takes l := by
  refine ⟨by decide +kernel, by decide +kernel, ?_⟩
  cases l <;> decide +kernel

theorem witness_MapAndUnmapBindSlots :
    claimed.takes .a ∧ (claimed.part.binding.maps.get .a).get 0 ≠ none ∧ (claimed.part.binding.maps.get .a).get 3 = none ∧
    ¬(⟨⟨4, true⟩, some ⟨4, false⟩⟩ : SlotEntry).chans.Nodup ∧ (⟨⟨4, true⟩, some ⟨5, false⟩⟩ : SlotEntry).chans.Nodup ∧
    claimed.part.binding.holders.get 0 ≠ some .a ∧ (3 : Channel) ∈ claimed.part.mapChannels .a ++ claimed.part.mapChannels .b ∧
    (∀ c ∈ (⟨⟨4, true⟩, some ⟨5, false⟩⟩ : SlotEntry).chans, claimed.part.binding.holders.get c = some .a ∧
      c ∉ claimed.part.mapChannels .a ++ claimed.part.mapChannels .b) ∧
    ((∃ c ∈ ([1, 2] : List Channel), ((pair .run).stateOf c).active = true) ∧
      ∀ c ∈ ([1, 2] : List Channel), ((pair .fault).stateOf c).active = false) :=
  ⟨takes_claimed _, by decide +kernel, by decide +kernel, by decide, by decide, by decide +kernel, by decide +kernel,
    by decide +kernel, by decide +kernel, by decide +kernel⟩

theorem witness_RevokeTakesChannelsAway :
    (idle (pair .run)).takes .s ∧ (63 : Byte).toNat < 64 ∧ (pair .run).bindingSound ∧ named 0x06 2 = true ∧
    (pair .run).binding.holders.get 4 = none ∧ (pair .run).binding.holders.get 2 = some .a ∧
    ((pair .run).binding.maps.get .a).get 0 = some ⟨⟨1, false⟩, some ⟨2, true⟩⟩ ∧
    ((pair .run).binding.maps.get .a).get 1 = some ⟨⟨3, false⟩, none⟩ ∧
    (claimed.part.binding.holders.get 5 = some .a ∧ (5 : Channel) ∉ claimed.part.mapChannels .a) :=
  ⟨takes_pair _ _, by decide, pair_sound _, by decide, rfl, rfl, rfl, rfl, by decide +kernel, by decide +kernel⟩

theorem witness_ParamStoresClampedGroups :
    (idle (pair .run)).takes .a ∧ gantry.binding.holders.get 0 ≠ some .a ∧
    requestOf (.paramHold .a 0 [0, 0, 0, 0, 0]) = some (.a, .param, 0 :: 6 :: [0, 0, 0, 0, 0]) ∧
    Kind.param.fitsLength (0 :: 6 :: [0, 0, 0, 0, 0]) = true ∧ (pair .run).binding.holders.get 1 = some .a ∧
    ((pair .run).ctx.get 1).state.active = true ∧ ((pair .off).ctx.get 1).state.active = false ∧ 65535 < 65536 ∧ 255 < 256 :=
  ⟨takes_pair _ _, by decide, rfl, by decide, rfl, rfl, rfl, by decide, by decide⟩

/-- The fields of a reply at the bounds of their ranges. -/
theorem witness_CodesOfTheTables :
    put8 255 = [0xFF] ∧ put16 0x1234 = [0x12, 0x34] ∧ put16 65535 = [0xFF, 0xFF] ∧ put32 0x12345678 = [0x12, 0x34, 0x56, 0x78] ∧
    putS16 (-32768) = [0x80, 0x00] ∧ putS16 32767 = [0x7F, 0xFF] ∧ putS16 (-1) = [0xFF, 0xFF] ∧
    putS32 (-2147483648) = [0x80, 0x00, 0x00, 0x00] ∧ putS32 (-2) = [0xFF, 0xFF, 0xFF, 0xFE] := by decide +kernel

theorem witness_LimitsAndCeilingsAreTied :
    (idle (pair .run)).takes .a ∧ (idle (pair .run)).takes .s ∧ (pair .run).binding.holders.get 1 = some .a ∧ 65535 < 65536 ∧
    ∃ tied : Nat → Nat → LimitsGroup → LimitsGroup, ∀ ic pc g, tied ic pc g = { g with
      icont := min g.icont ic
      ipk := min (max g.ipk (min g.icont ic)) pc
      idMax := min g.idMax (min (max g.ipk (min g.icont ic)) pc) } :=
  ⟨takes_pair _ _, takes_pair _ _, rfl, by decide, ⟨_, fun _ _ _ => rfl⟩⟩

theorem witness_EnableChecksThenCaptures :
    (idle (pair .off)).takes .a ∧ ((pair .off).binding.maps.get .a).get 3 = none ∧
    ((pair .off).binding.maps.get .a).get 0 = some ⟨⟨1, false⟩, some ⟨2, true⟩⟩ ∧
    (∃ c ∈ ([1, 2] : List Channel), ((pair .hold).stateOf c).active = true) ∧
    (∃ c ∈ ([1, 2] : List Channel), (pair .fault).stateOf c = .fault) ∧
    ((∀ c ∈ ([1, 2] : List Channel), (pair .safeOff).stateOf c ≠ .fault) ∧
      ∃ c ∈ ([1, 2] : List Channel), (pair .safeOff).stateOf c = .safeOff) ∧
    (∀ c ∈ ([1, 2] : List Channel), (pair .off).stateOf c = .off) ∧
    (∀ c ∈ ([1, 2] : List Channel), ((pair .off).ctx.get c).marks.sense = true ∧ ((pair .off).ctx.get c).marks.loop = true ∧
      ((pair .off).ctx.get c).marks.limits = true ∧ ((pair .off).ctx.get c).marks.protect = true ∧
      ((pair .off).ctx.get c).marks.hold = true) ∧
    ((pair .off).ctx.get 3).marks.sense = false ∧ (pair .off).bus.budgetSet = true ∧ base.bus.budgetSet = false ∧
    (pair .off).bus.uv + (pair .off).bus.uvh ≤ (pair .off).bus.vdc ∧ base.bus.vdc < base.bus.uv + base.bus.uvh :=
  ⟨takes_pair _ _, rfl, rfl, by decide +kernel, by decide +kernel, by decide +kernel, by decide +kernel, by decide +kernel, rfl, rfl,
    rfl, by decide +kernel, by decide +kernel⟩

theorem witness_DisableStopsMembers :
    (idle (pair .run)).takes .a ∧ ((pair .run).binding.maps.get .a).get 3 = none ∧
    ((pair .run).binding.maps.get .a).get 0 = some ⟨⟨1, false⟩, some ⟨2, true⟩⟩ := ⟨takes_pair _ _, rfl, rfl⟩

/-- Records for the two slots of the gantry, with references and steps at the bounds of their fields. -/
def records : List Record :=
  [.peak, .set 0 (-32768) 32767 [⟨0, 32767⟩, ⟨65535, -32768⟩], .set 1 0 0 [⟨1, 0⟩], .peak]

theorem records_fit : ∀ r ∈ records, r.fits := by
  intro r h
  simp only [records, List.mem_cons, List.not_mem_nil, or_false] at h
  rcases h with rfl | rfl | rfl | rfl <;> simp [Record.fits]

theorem records_pass : ∀ r ∈ records, r.passes (gantry.binding.maps.get .a) := by
  intro r h
  simp only [records, List.mem_cons, List.not_mem_nil, or_false] at h
  rcases h with rfl | rfl | rfl | rfl
  · trivial
  · exact ⟨_, rfl, rfl⟩
  · exact ⟨_, rfl, rfl⟩
  · trivial

/-- An open batch of Link A that holds `n` PEAK records. -/
def opened (n : Nat) : State := idle { gantry with batches := ⟨some (List.replicate n .peak), none⟩ }

theorem witness_SetAppendsRecords :
    (opened 4).takes .a ∧ (∀ r ∈ records, r.fits) ∧ (∀ r ∈ records, r.passes ((opened 4).part.binding.maps.get .a)) ∧
    (records.flatMap Record.wire).length ≤ 59 ∧
    (((opened 4).part.batches.get .a).getD [] ++ records.map Record.stored).length = 8 ∧
    8 < (((opened 5).part.batches.get .a).getD []).length + records.length ∧
    (((opened 4).part.binding.maps.get .a).get 3 = none ∧
      ([⟨0, 0⟩] : List AngleBlock).length ≠ (⟨⟨1, false⟩, some ⟨2, true⟩⟩ : SlotEntry).members.length) ∧
    (¬∃ rs : List Record, (∀ r ∈ rs, r.fits) ∧ ([0x13] : List Byte) = rs.flatMap Record.wire) := by
  refine ⟨takes_idle _ _ rfl rfl, records_fit, records_pass, by decide +kernel, by decide +kernel, by decide +kernel,
    by decide +kernel, ?_⟩
  rintro ⟨rs, -, h⟩
  match rs with
  | [] => simp at h
  | .peak :: _ => simp [Record.wire] at h
  | .set k i q b :: _ => simp only [List.flatMap_cons, Record.wire] at h; split at h <;> simp at h

theorem witness_SetEndDeliversBatch :
    (opened 4).takes .a ∧ (opened 4).part.bindingSound ∧ (∀ r ∈ records, r.fits) ∧
    (∀ r ∈ records, r.passes ((opened 4).part.binding.maps.get .a)) ∧ (records.flatMap Record.wire).length ≤ 59 ∧
    (((opened 4).part.batches.get .a).getD [] ++ records.map Record.stored).length ≤ 8 :=
  ⟨takes_idle _ _ rfl rfl, gantry_sound, records_fit, records_pass, by decide +kernel, by decide +kernel⟩

theorem witness_TimingAndSlotWaitForFrameMark :
    (idle (pair .run)).takes .s ∧ (65535 < 65536 ∧ 255 < 256) ∧
    (max 2400 (min 24000 (2400 / 12 * 12)) ≠ gantry.carrier.pendingP.getD gantry.carrier.period ∧
      ∃ c, ((pair .run).stateOf c).active = true) ∧
    max 2400 (min 24000 (12011 / 12 * 12)) = gantry.carrier.pendingP.getD gantry.carrier.period ∧
    (∀ c, ((pair .fault).stateOf c).active = false) ∧
    ((gantry.carrier.pendingTable.getD gantry.carrier.table).toList.Nodup ∧ (5 : CarrierSlot).val = min (255 : Byte).toNat 5) ∧
    ((pair .run).stateOf 1).active = true ∧ ((pair .run).stateOf 3).active = false ∧ ((pair .run).stateOf 5).active = false := by
  refine ⟨takes_pair _ _, ?_⟩
  decide +kernel

theorem witness_BusBudgetClassStoreFields :
    (idle gantry).takes .s ∧ 65535 < 65536 ∧ 255 < 256 ∧ 2 ^ 32 - 1 < 2 ^ 32 ∧
    (let es : List (Channel × Nat × Nat) := [(5, 255, 65535)]
     1 ≤ es.length ∧ es.length ≤ 6 ∧ (∀ e ∈ es, e.2.1 < 256 ∧ e.2.2 < 65536) ∧ (es.map (fun e => e.1)).Nodup) ∧
    ¬(([(5, 0, 0), (5, 0, 0)] : List (Channel × Nat × Nat)).map (fun e => e.1)).Nodup :=
  ⟨takes_gantry _, by decide, by decide, by decide, by decide +kernel, by decide +kernel⟩

theorem witness_TorqueRequestsWithdrawAndRestore :
    (idle (pair .run)).takes .s ∧ (63 : Byte).toNat < 64 ∧ (pair .run).torque.ten = true ∧
    (after .tenFall (idle gantry)).part.torque.ten = false ∧
    (inState (pair .run) 1 .safeOff).bindingSound ∧ ((inState (pair .run) 1 .safeOff).stateOf 1).active = false ∧
    ((inState (pair .run) 1 .safeOff).binding.maps.get .a).get 0 = some ⟨⟨1, false⟩, some ⟨2, true⟩⟩ ∧
    (∀ c ∈ ([3, 4] : List Channel), ∀ m k y z, ((pair .run).binding.maps.get m).get k = some ⟨y, some z⟩ → y.ch ≠ c ∧ z.ch ≠ c) := by
  refine ⟨takes_pair _ _, by decide, rfl, by decide +kernel, ⟨by decide +kernel, ?_, by decide +kernel⟩, rfl, rfl, ?_⟩
  · intro m; cases m <;> decide +kernel
  · intro c h m k y z e
    have all : ∀ c ∈ ([3, 4] : List Channel), ∀ m k, ∀ e ∈ ((pair .run).binding.maps.get m).get k, ∀ z ∈ e.second,
        e.first.ch ≠ c ∧ z.ch ≠ c := by
      intro c h m
      revert c
      cases m <;> decide +kernel
    exact all c h m k _ e z rfl

/-- The gantry in RUN has every property that the statements about steps suppose of a state. -/
theorem witness_properties_of_steps :
    (pair .run).bridgeOffIsOff ∧ (pair .run).queuesSound ∧ (pair .run).repliesAndBatchesSound ∧ (pair .run).limitsOrdered ∧
    (pair .run).settingsSound ∧ (pair .run).bindingSound ∧ (pair .run).causesSound ∧ (pair .run).torqueSound ∧
    ∃ t, step (idle (pair .run)) = .next t := by
  refine ⟨⟨by decide, by decide +kernel⟩, ?_, ⟨?_, ?_⟩, by unfold Part.limitsOrdered Context.limitsOrdered; decide +kernel, ?_,
    pair_sound _, by unfold Part.causesSound; decide +kernel, ⟨by decide, by decide +kernel⟩, ⟨_, rfl⟩⟩
  · intro l; cases l <;> exact ⟨by decide, by decide, rfl⟩
  · intro l; cases l <;> exact ⟨by decide, by decide +kernel⟩
  · intro m rs h; cases m <;> cases h
  · exact ⟨⟨by unfold periodSound; decide, by intro n h; cases h⟩, by decide,
      ⟨by unfold tableSound; decide, by intro t h; cases h⟩, by decide +kernel⟩

end Sys2Proof.Tests
end

/-! SUPPORT. The fixed function of the angle (R68): the model's fixed-point series against the real sine and cosine. -/

namespace Sys2Proof.Machine

/-! ### Fixed-point numbers with 64 fraction bits -/

/-- The real number that a fixed-point number of the series stands for. -/
noncomputable def fixVal (a : ℕ) : ℝ := a / 2 ^ 64

theorem fixVal_nonneg (a : ℕ) : 0 ≤ fixVal a := by unfold fixVal; positivity

theorem fixVal_le_one {a : ℕ} : fixVal a ≤ 1 ↔ a ≤ trigOne := by
  rw [fixVal, div_le_one (by positivity), trigOne]
  exact_mod_cast Iff.rfl

/-- A truncated division is less than one unit below the quotient. -/
theorem natDiv_near (a b : ℕ) : |((a / b : ℕ) : ℝ) - a / b| ≤ 1 := by
  have below : ((a / b : ℕ) : ℝ) ≤ a / b := Nat.cast_div_le
  have above : (a : ℝ) / b < (a / b : ℕ) + 1 := by
    rw [← Nat.floor_div_eq_div (K := ℝ)]; exact Nat.lt_floor_add_one _
  exact abs_le.mpr ⟨by linarith, by linarith⟩

theorem fixVal_natDiv (a d : ℕ) : |fixVal (a / d) - fixVal a / d| ≤ 1 / 2 ^ 64 := by
  have scaled : fixVal (a / d) - fixVal a / d = (((a / d : ℕ) : ℝ) - a / d) / 2 ^ 64 := by
    unfold fixVal; ring
  rw [scaled, abs_div, abs_of_pos (by positivity : (0 : ℝ) < 2 ^ 64)]
  gcongr
  exact natDiv_near a d

theorem fixVal_trigMul (a b : ℕ) : |fixVal (trigMul a b) - fixVal a * fixVal b| ≤ 1 / 2 ^ 64 := by
  have product : fixVal a * fixVal b = fixVal (a * b) / trigOne := by
    unfold fixVal trigOne; push_cast; ring
  rw [product]
  exact fixVal_natDiv (a * b) trigOne

theorem trigMul_le_one {a b : ℕ} (ha : a ≤ trigOne) (hb : b ≤ trigOne) : trigMul a b ≤ trigOne :=
  Nat.div_le_of_le_mul (Nat.mul_le_mul ha hb)

theorem fixVal_one_sub {a : ℕ} (ha : a ≤ trigOne) : fixVal (trigOne - a) = 1 - fixVal a := by
  unfold fixVal
  rw [Nat.cast_sub ha, trigOne]
  push_cast
  ring

/-! ### The series in fixed point against the series in the reals -/

/-- The real number that `trigSeries` approximates: `1 - y/d1 (1 - y/d2 (1 - ...))`. -/
noncomputable def realSeries (y : ℝ) (ds : List ℕ) : ℝ := ds.foldr (fun d acc => 1 - y * acc / d) 1

theorem trigSeries_nil (y : ℕ) : trigSeries y [] = trigOne := by rw [trigSeries, List.foldr_nil]

theorem trigSeries_cons (y d : ℕ) (ds : List ℕ) :
    trigSeries y (d :: ds) = trigOne - trigMul y (trigSeries y ds) / d := rfl

theorem realSeries_cons (y : ℝ) (d : ℕ) (ds : List ℕ) :
    realSeries y (d :: ds) = 1 - y * realSeries y ds / d := rfl

theorem trigSeries_le_one (y : ℕ) (ds : List ℕ) : trigSeries y ds ≤ trigOne := by
  cases ds with
  | nil => rw [trigSeries_nil]
  | cons d ds => rw [trigSeries_cons]; exact Nat.sub_le _ _

theorem fixVal_trigSeries_range (y : ℕ) (ds : List ℕ) : 0 ≤ fixVal (trigSeries y ds) ∧ fixVal (trigSeries y ds) ≤ 1 :=
  ⟨fixVal_nonneg _, fixVal_le_one.mpr (trigSeries_le_one y ds)⟩

/-- The product of two approximations of numbers in `0..1`. -/
theorem mul_near {a x b y e f : ℝ} (ha : |a - x| ≤ e) (hb : |b - y| ≤ f) (hx : 0 ≤ x ∧ x ≤ 1) (hb01 : 0 ≤ b ∧ b ≤ 1) :
    |a * b - x * y| ≤ e + f := by
  have split : a * b - x * y = (a - x) * b + x * (b - y) := by ring
  calc |a * b - x * y| ≤ |a - x| * |b| + |x| * |b - y| := by
        rw [split, ← abs_mul, ← abs_mul]; exact abs_add_le _ _
    _ ≤ e * 1 + 1 * f := by
        rw [abs_of_nonneg hb01.1, abs_of_nonneg hx.1]
        gcongr
        · exact hb01.1
        · exact (abs_nonneg _).trans ha
        · exact hb01.2
        · exact hx.2
    _ = e + f := by ring

/-- Each step of the series adds the error of its `y` and of its two truncations; the divisors only shrink what stood before. -/
theorem trigSeries_near {Y : ℕ} {y : ℝ} (hY : Y ≤ trigOne) (hy : 0 ≤ y ∧ y ≤ 1) (near : |fixVal Y - y| ≤ 5 / 2 ^ 64)
    (ds : List ℕ) (pos : ∀ d ∈ ds, 0 < d) :
    |fixVal (trigSeries Y ds) - realSeries y ds| ≤ 7 * ds.length / 2 ^ 64 := by
  induction ds with
  | nil => norm_num [trigSeries, realSeries, fixVal, trigOne]
  | cons d ds ih =>
    obtain ⟨hd, hds⟩ := List.forall_mem_cons.mp pos
    have hd' : (1 : ℝ) ≤ d := by exact_mod_cast hd
    set a := trigSeries Y ds
    set s := realSeries y ds
    have product : |fixVal (trigMul Y a) - y * s| ≤ 6 / 2 ^ 64 + 7 * ds.length / 2 ^ 64 := by
      have truncated := fixVal_trigMul Y a
      have untruncated := mul_near near (ih hds) hy (fixVal_trigSeries_range Y ds)
      calc |fixVal (trigMul Y a) - y * s| ≤ |fixVal (trigMul Y a) - fixVal Y * fixVal a| + |fixVal Y * fixVal a - y * s| :=
            abs_sub_le _ _ _
        _ ≤ 6 / 2 ^ 64 + 7 * ds.length / 2 ^ 64 := by linarith
    have quotient : |fixVal (trigMul Y a) / d - y * s / d| ≤ 6 / 2 ^ 64 + 7 * ds.length / 2 ^ 64 := by
      rw [← sub_div, abs_div, abs_of_pos (by linarith : (0 : ℝ) < d)]
      exact (div_le_self (abs_nonneg _) hd').trans product
    have fits : trigMul Y a / d ≤ trigOne :=
      (Nat.div_le_self _ _).trans (trigMul_le_one hY (trigSeries_le_one Y ds))
    have step : fixVal (trigSeries Y (d :: ds)) - realSeries y (d :: ds) =
        -(fixVal (trigMul Y a / d) - y * s / d) := by
      rw [trigSeries_cons, realSeries_cons, fixVal_one_sub fits]; ring
    rw [step, abs_neg]
    calc |fixVal (trigMul Y a / d) - y * s / d|
        ≤ |fixVal (trigMul Y a / d) - fixVal (trigMul Y a) / d| + |fixVal (trigMul Y a) / d - y * s / d| := abs_sub_le _ _ _
      _ ≤ 1 / 2 ^ 64 + (6 / 2 ^ 64 + 7 * ds.length / 2 ^ 64) := add_le_add (fixVal_natDiv _ _) quotient
      _ = 7 * (d :: ds).length / 2 ^ 64 := by push_cast [List.length_cons]; ring

/-! ### The power series of sine and cosine -/

/-- The successive quotients of the cosine series. -/
def cosDivisors : List ℕ := [1 * 2, 3 * 4, 5 * 6, 7 * 8, 9 * 10, 11 * 12, 13 * 14, 15 * 16]

/-- The successive quotients of the sine series. -/
def sinDivisors : List ℕ := [2 * 3, 4 * 5, 6 * 7, 8 * 9, 10 * 11, 12 * 13, 14 * 15]

theorem cosSeries_eq (k : ℕ) : cosSeries k = trigSeries (trigMul (trigAngle k) (trigAngle k)) cosDivisors := rfl

theorem sinSeries_eq (k : ℕ) :
    sinSeries k = trigMul (trigAngle k) (trigSeries (trigMul (trigAngle k) (trigAngle k)) sinDivisors) := rfl

/-- The first 17 terms of the exponential series at `x i`. -/
noncomputable def expSum (x : ℝ) : ℂ := ∑ m ∈ Finset.range 17, ((x : ℂ) * Complex.I) ^ m / m.factorial

theorem mul_I_pow_add_four (z : ℂ) (n : ℕ) : (z * Complex.I) ^ (n + 4) = z ^ 4 * (z * Complex.I) ^ n := by
  rw [pow_add, mul_pow z Complex.I 4, Complex.I_pow_four]; ring

/-- Its cosine and sine parts are the nested series of the model. -/
theorem expSum_eq (x : ℝ) :
    expSum x = (realSeries (x ^ 2) cosDivisors : ℝ) + ((x * realSeries (x ^ 2) sinDivisors : ℝ) : ℂ) * Complex.I := by
  simp only [expSum, Finset.sum_range_succ, Finset.sum_range_zero, mul_I_pow_add_four]
  norm_num [mul_pow, Nat.factorial, Complex.I_pow_three, realSeries, cosDivisors, sinDivisors]
  ring

theorem exp_sub_expSum (x : ℝ) :
    Complex.exp (x * Complex.I) - expSum x =
      ((Real.cos x - realSeries (x ^ 2) cosDivisors : ℝ) : ℂ) +
        ((Real.sin x - x * realSeries (x ^ 2) sinDivisors : ℝ) : ℂ) * Complex.I := by
  rw [expSum_eq, Complex.exp_mul_I]
  push_cast
  ring

/-- What the terms after the 17th can add to the exponential at `x i`. -/
theorem expSum_near {x : ℝ} (hx : |x| ≤ 1) : ‖Complex.exp (x * Complex.I) - expSum x‖ ≤ 1 / 2 ^ 48 := by
  have small : ‖(x : ℂ) * Complex.I‖ ≤ 1 := by simpa using hx
  refine (Complex.exp_bound small (n := 17) (by norm_num)).trans ?_
  calc ‖(x : ℂ) * Complex.I‖ ^ 17 * (((17 : ℕ).succ : ℝ) * ((17 : ℕ).factorial * (17 : ℕ) : ℝ)⁻¹)
      ≤ 1 * (((17 : ℕ).succ : ℝ) * ((17 : ℕ).factorial * (17 : ℕ) : ℝ)⁻¹) := by
        gcongr; exact pow_le_one₀ (norm_nonneg _) small
    _ ≤ 1 / 2 ^ 48 := by norm_num [Nat.factorial]

theorem realSeries_near_cos {x : ℝ} (hx : |x| ≤ 1) :
    |realSeries (x ^ 2) cosDivisors - Real.cos x| ≤ 1 / 2 ^ 48 := by
  have bound := (Complex.abs_re_le_norm _).trans (expSum_near hx)
  rw [exp_sub_expSum, Complex.add_re, Complex.ofReal_re, Complex.re_ofReal_mul, Complex.I_re, mul_zero, add_zero] at bound
  rwa [abs_sub_comm]

theorem realSeries_near_sin {x : ℝ} (hx : |x| ≤ 1) :
    |x * realSeries (x ^ 2) sinDivisors - Real.sin x| ≤ 1 / 2 ^ 48 := by
  have bound := (Complex.abs_im_le_norm _).trans (expSum_near hx)
  rw [exp_sub_expSum, Complex.add_im, Complex.ofReal_im, Complex.im_ofReal_mul, Complex.I_im, mul_one, zero_add] at bound
  rwa [abs_sub_comm]

/-! ### The angle in fixed point -/

/-- The angle of `k` steps of 1/65536 turn, in radians. -/
noncomputable def stepAngle (k : ℕ) : ℝ := k * Real.pi / 2 ^ 15

theorem trigPi_near : (trigPi : ℝ) ≤ 2 ^ 64 * Real.pi ∧ 2 ^ 64 * Real.pi ≤ trigPi + 1 := by
  have low := Real.pi_gt_d20
  have high := Real.pi_lt_d20
  unfold trigPi
  constructor <;> norm_num at low high ⊢ <;> linarith

theorem stepAngle_range {k : ℕ} (hk : k ≤ 8192) : 0 ≤ stepAngle k ∧ stepAngle k ≤ 1 := by
  have hk' : (k : ℝ) ≤ 8192 := by exact_mod_cast hk
  have := Real.pi_pos
  refine ⟨by unfold stepAngle; positivity, ?_⟩
  rw [stepAngle, div_le_one (by positivity)]
  nlinarith [Real.pi_le_four]

theorem fixVal_trigAngle {k : ℕ} (hk : k ≤ 8192) : |fixVal (trigAngle k) - stepAngle k| ≤ 2 / 2 ^ 64 := by
  have hk' : (k : ℝ) ≤ 8192 := by exact_mod_cast hk
  obtain ⟨low, high⟩ := trigPi_near
  have truncated := fixVal_natDiv (k * trigPi) (2 ^ 15)
  have scaled : |fixVal (k * trigPi) / (2 ^ 15 : ℕ) - stepAngle k| ≤ 1 / 2 ^ 64 := by
    have : fixVal (k * trigPi) / (2 ^ 15 : ℕ) - stepAngle k = -(k / 2 ^ 15 * (2 ^ 64 * Real.pi - trigPi) / 2 ^ 64) := by
      unfold fixVal stepAngle; push_cast; ring
    rw [this, abs_neg, abs_of_nonneg (by have := sub_nonneg.mpr low; positivity)]
    gcongr
    nlinarith
  have total := (abs_sub_le _ _ _).trans (add_le_add truncated scaled)
  rw [trigAngle]
  linarith

theorem trigAngle_le_one {k : ℕ} (hk : k ≤ 8192) : trigAngle k ≤ trigOne := by
  calc trigAngle k ≤ 8192 * trigPi / 2 ^ 15 := Nat.div_le_div_right (Nat.mul_le_mul_right _ hk)
    _ ≤ trigOne := by decide

theorem fixVal_trigAngle_sq {k : ℕ} (hk : k ≤ 8192) :
    |fixVal (trigMul (trigAngle k) (trigAngle k)) - stepAngle k ^ 2| ≤ 5 / 2 ^ 64 := by
  have angle := fixVal_trigAngle hk
  have range : 0 ≤ fixVal (trigAngle k) ∧ fixVal (trigAngle k) ≤ 1 :=
    ⟨fixVal_nonneg _, fixVal_le_one.mpr (trigAngle_le_one hk)⟩
  have square := mul_near angle angle (stepAngle_range hk) range
  have total := (abs_sub_le _ _ _).trans (add_le_add (fixVal_trigMul (trigAngle k) (trigAngle k)) square)
  rw [sq]
  linarith

/-! ### The series against sine and cosine -/

theorem angleSeries_near {k : ℕ} (hk : k ≤ 8192) (ds : List ℕ) (pos : ∀ d ∈ ds, 0 < d) :
    |fixVal (trigSeries (trigMul (trigAngle k) (trigAngle k)) ds) - realSeries (stepAngle k ^ 2) ds| ≤
      7 * ds.length / 2 ^ 64 := by
  obtain ⟨low, high⟩ := stepAngle_range hk
  have fits := trigAngle_le_one hk
  exact trigSeries_near (trigMul_le_one fits fits) ⟨sq_nonneg _, pow_le_one₀ low high⟩ (fixVal_trigAngle_sq hk) ds pos

theorem abs_stepAngle_le_one {k : ℕ} (hk : k ≤ 8192) : |stepAngle k| ≤ 1 := by
  obtain ⟨low, high⟩ := stepAngle_range hk
  rwa [abs_of_nonneg low]

theorem cosSeries_near {k : ℕ} (hk : k ≤ 8192) : |fixVal (cosSeries k) - Real.cos (stepAngle k)| ≤ 1 / 2 ^ 40 := by
  have series := angleSeries_near hk cosDivisors (by decide)
  have taylor := realSeries_near_cos (abs_stepAngle_le_one hk)
  rw [cosSeries_eq]
  refine (abs_sub_le _ _ _).trans ((add_le_add series taylor).trans ?_)
  norm_num [cosDivisors]

theorem sinSeries_near {k : ℕ} (hk : k ≤ 8192) : |fixVal (sinSeries k) - Real.sin (stepAngle k)| ≤ 1 / 2 ^ 40 := by
  have series := angleSeries_near hk sinDivisors (by decide)
  have product := mul_near (fixVal_trigAngle hk) series (stepAngle_range hk) (fixVal_trigSeries_range _ _)
  have taylor := realSeries_near_sin (abs_stepAngle_le_one hk)
  rw [sinSeries_eq]
  have fixed := (abs_sub_le _ _ _).trans (add_le_add (fixVal_trigMul _ _) product)
  refine (abs_sub_le _ _ _).trans ((add_le_add fixed taylor).trans ?_)
  norm_num [sinDivisors]

/-! ### Rounding: no angle up to a quarter turn comes near a half -/

/-- The sine of `k` steps of the first quarter turn in fixed point, before `sinQuarter` scales and rounds it. -/
def quarterSeries (k : ℕ) : ℕ := if k ≤ 8192 then sinSeries k else cosSeries (16384 - k)

theorem sinQuarter_eq (k : ℕ) : sinQuarter k = (32767 * quarterSeries k + 2 ^ 63) / trigOne := rfl

theorem stepAngle_complement {k : ℕ} (hk : k ≤ 16384) : stepAngle (16384 - k) = Real.pi / 2 - stepAngle k := by
  unfold stepAngle
  push_cast [Nat.cast_sub hk]
  ring

theorem quarterSeries_near {k : ℕ} (hk : k ≤ 16384) : |fixVal (quarterSeries k) - Real.sin (stepAngle k)| ≤ 1 / 2 ^ 40 := by
  unfold quarterSeries
  split
  next h => exact sinSeries_near h
  next h =>
    have near := cosSeries_near (k := 16384 - k) (by omega)
    rwa [stepAngle_complement hk, Real.cos_pi_div_two_sub] at near

/-- `32767 v` lies at least `2 ^ -18` off every half, so that the error of the series cannot move its rounding. -/
def roundsClear (v : ℕ) : Bool :=
  2 ^ 46 ≤ (32767 * v + 2 ^ 63) % trigOne ∧ (32767 * v + 2 ^ 63) % trigOne + 2 ^ 46 ≤ trigOne

/-- The check of `f` at the `2 ^ d` numbers from `b` on, by halves, so that its depth is `d`. -/
def clearOn (f : ℕ → ℕ) : ℕ → ℕ → Bool
  | 0, b => roundsClear (f b)
  | d + 1, b => clearOn f d b && clearOn f d (b + 2 ^ d)

theorem roundsClear_of_clearOn {f : ℕ → ℕ} {d b k : ℕ} (clear : clearOn f d b = true) (low : b ≤ k) (high : k < b + 2 ^ d) :
    roundsClear (f k) = true := by
  induction d generalizing b with
  | zero =>
    obtain rfl : k = b := by omega
    exact clear
  | succ d ih =>
    obtain ⟨lower, upper⟩ := (Bool.and_eq_true _ _).mp clear
    rw [pow_succ] at high
    rcases Nat.lt_or_ge k (b + 2 ^ d) with h | h
    · exact ih lower low h
    · exact ih upper h (by omega)

/-- How near `32767 sin` comes to a half at a multiple of 1/65536 turn follows from no formula: it is computed. -/
theorem clearOn_quarterSeries : clearOn quarterSeries 14 1 = true := by decide +kernel

theorem quarterSeries_roundsClear {k : ℕ} (hk : k ≤ 16384) : roundsClear (quarterSeries k) = true := by
  rcases Nat.eq_zero_or_pos k with rfl | hpos
  · decide +kernel
  · exact roundsClear_of_clearOn clearOn_quarterSeries hpos (by omega)

/-- A value that lies clear of every half is rounded as every real number near it is. -/
theorem round_near_of_roundsClear {v : ℕ} {x : ℝ} (clear : roundsClear v = true) (near : |fixVal v - x| ≤ 1 / 2 ^ 40) :
    |(((32767 * v + 2 ^ 63) / trigOne : ℕ) : ℝ) - 32767 * x| < 1 / 2 := by
  obtain ⟨low, high⟩ := of_decide_eq_true clear
  have divided := Nat.div_add_mod (32767 * v + 2 ^ 63) trigOne
  set r := (32767 * v + 2 ^ 63) % trigOne
  set q := (32767 * v + 2 ^ 63) / trigOne
  have low' : (2 : ℝ) ^ 46 ≤ r := by exact_mod_cast low
  have high' : r + (2 : ℝ) ^ 46 ≤ 2 ^ 64 := by exact_mod_cast high
  have divided' : (2 : ℝ) ^ 64 * q + r = 32767 * (2 ^ 64 * fixVal v) + 2 ^ 63 := by
    rw [fixVal, mul_div_cancel₀ _ (by positivity)]
    exact_mod_cast divided
  obtain ⟨below, above⟩ := abs_le.mp near
  rw [abs_lt]
  constructor <;> linarith

theorem sinQuarter_near {k : ℕ} (hk : k ≤ 16384) : |(sinQuarter k : ℝ) - 32767 * Real.sin (stepAngle k)| < 1 / 2 := by
  rw [sinQuarter_eq]
  exact round_near_of_roundsClear (quarterSeries_roundsClear hk) (quarterSeries_near hk)

/-! ### The whole turn -/

theorem stepAngle_add (m n : ℕ) : stepAngle (m + n) = stepAngle m + stepAngle n := by
  unfold stepAngle; push_cast; ring

/-- Every angle lies in one of the four quarters of its turn. -/
theorem steps_cases (n : ℕ) :
    ∃ m r, r < 16384 ∧ n % 16384 = r ∧
      (n / 16384 % 4 = 0 ∧ n = 65536 * m + r ∨ n / 16384 % 4 = 1 ∧ n = 65536 * m + (16384 + r) ∨
        n / 16384 % 4 = 2 ∧ n = 65536 * m + (32768 + r) ∨ n / 16384 % 4 = 3 ∧ n = 65536 * m + (49152 + r)) :=
  ⟨n / 65536, n % 16384, by omega⟩

theorem sin_stepAngle_turns (m k : ℕ) : Real.sin (stepAngle (65536 * m + k)) = Real.sin (stepAngle k) := by
  have turns : stepAngle (65536 * m) = m * (2 * Real.pi) := by unfold stepAngle; push_cast; ring
  rw [stepAngle_add, turns, add_comm, Real.sin_add_nat_mul_two_pi]

theorem sin_stepAngle_half (k : ℕ) : Real.sin (stepAngle (32768 + k)) = -Real.sin (stepAngle k) := by
  have half : stepAngle 32768 = Real.pi := by unfold stepAngle; push_cast; ring
  rw [stepAngle_add, half, add_comm, Real.sin_add_pi]

theorem sin_stepAngle_quarter {k : ℕ} (hk : k ≤ 16384) :
    Real.sin (stepAngle (16384 + k)) = Real.sin (stepAngle (16384 - k)) := by
  have quarter : stepAngle 16384 = Real.pi / 2 := by unfold stepAngle; push_cast; ring
  rw [stepAngle_add, quarter, stepAngle_complement hk, add_comm, Real.sin_add_pi_div_two, Real.sin_pi_div_two_sub]

theorem neg_near {a x : ℝ} (h : |a - 32767 * x| < 1 / 2) : |-a - 32767 * -x| < 1 / 2 := by
  rwa [mul_neg, ← neg_sub', abs_neg]

theorem sinSteps_near (n : ℕ) : |((sinSteps n : ℤ) : ℝ) - 32767 * Real.sin (stepAngle n)| < 1 / 2 := by
  obtain ⟨m, r, hr, rest, ⟨q, turn⟩ | ⟨q, turn⟩ | ⟨q, turn⟩ | ⟨q, turn⟩⟩ := steps_cases n
  all_goals
    simp only [sinSteps, rest, q]
    rw [turn, sin_stepAngle_turns]
  · exact sinQuarter_near hr.le
  · rw [sin_stepAngle_quarter hr.le]
    exact sinQuarter_near (Nat.sub_le _ _)
  · rw [sin_stepAngle_half, Int.cast_neg]
    exact neg_near (sinQuarter_near hr.le)
  · rw [show 49152 + r = 32768 + (16384 + r) by omega, sin_stepAngle_half, sin_stepAngle_quarter hr.le, Int.cast_neg]
    exact neg_near (sinQuarter_near (Nat.sub_le _ _))

theorem sinQ15_near (theta : Word16) :
    |((sinQ15 theta : ℤ) : ℝ) - 32767 * Real.sin (2 * Real.pi * theta.toNat / 65536)| < 1 / 2 := by
  have angle : 2 * Real.pi * theta.toNat / 65536 = stepAngle theta.toNat := by unfold stepAngle; ring
  rw [angle]
  exact sinSteps_near theta.toNat

theorem cosQ15_near (theta : Word16) :
    |((cosQ15 theta : ℤ) : ℝ) - 32767 * Real.cos (2 * Real.pi * theta.toNat / 65536)| < 1 / 2 := by
  have angle : Real.cos (2 * Real.pi * theta.toNat / 65536) = Real.sin (stepAngle (theta.toNat + 16384)) := by
    rw [← Real.sin_add_pi_div_two]; unfold stepAngle; push_cast; ring_nf
  rw [angle]
  exact sinSteps_near (theta.toNat + 16384)

/-- Settles O27: the series lies within `2 ^ -40` of the true sine, and no angle's scaled series lies that near a half. -/
theorem sineTableExact : Obligations.SineTableExact :=
  ⟨fun theta => ⟨sinQ15_near theta, cosQ15_near theta⟩, fun _ _ _ => rfl, fun _ _ _ => rfl⟩

end Sys2Proof.Machine

/-! SUPPORT. The current loop computation: the voltage limit, the shaped references, the measurement and the output angle. -/

namespace Sys2Proof.Machine

/-! ### Arithmetic of R1: the clamp and the root -/

theorem clampI_range {lo hi : ℤ} (h : lo ≤ hi) (x : ℤ) : lo ≤ clampI lo hi x ∧ clampI lo hi x ≤ hi := by
  unfold clampI; omega

theorem clampI_natAbs_le (b : ℕ) (x : ℤ) : (clampI (-(b : ℤ)) b x).natAbs ≤ b := by
  have := clampI_range (by omega : -(b : ℤ) ≤ b) x
  omega

theorem clampI_natAbs_of_outside {b : ℕ} {x : ℤ} (h : (b : ℤ) ≤ x ∨ x ≤ -(b : ℤ)) : (clampI (-(b : ℤ)) b x).natAbs = b := by
  unfold clampI; omega

@[simp] theorem clampI_zero (x : ℤ) : clampI (-0) 0 x = 0 := by
  unfold clampI; omega

/-- The root found so far is kept at or below the root of `n`, and the digits to come can still reach it. -/
theorem isqrtFrom_eq_sqrt (n k r : ℕ) (low : r * r ≤ n) (high : n < (r + 2 ^ k) * (r + 2 ^ k)) :
    isqrtFrom n k r = Nat.sqrt n := by
  induction k generalizing r with
  | zero => exact Nat.eq_sqrt.mpr ⟨low, high⟩
  | succ k ih =>
    rw [pow_succ, mul_two, ← add_assoc] at high
    rw [isqrtFrom, isqrtStep]
    split
    next fits => exact ih _ fits high
    next exceeds => exact ih _ low (not_le.mp exceeds)

/-- A value of up to 64 bits has a root of up to 32 digits. -/
theorem isqrt_eq_sqrt {n : ℕ} (h : n < 2 ^ 64) : isqrt n = Nat.sqrt n :=
  isqrtFrom_eq_sqrt n 32 0 (Nat.zero_le n) (by omega)

/-! ### The voltage limit of R75 -/

/-- The square of the longest q voltage that the limited d voltage leaves in the circle. -/
def restOfCircle (vmax : ℕ) (vd : ℤ) : ℕ := vmax ^ 2 - (clampI (-(vmax : ℤ)) vmax vd).natAbs ^ 2

theorem sqrt_restOfCircle_le (vmax : ℕ) (vd : ℤ) : Nat.sqrt (restOfCircle vmax vd) ≤ vmax :=
  (Nat.sqrt_le_sqrt (Nat.sub_le _ _)).trans (Nat.sqrt_eq' vmax).le

theorem restOfCircle_of_outside {vmax : ℕ} {vd : ℤ} (h : (vmax : ℤ) ≤ vd ∨ vd ≤ -(vmax : ℤ)) : restOfCircle vmax vd = 0 := by
  rw [restOfCircle, clampI_natAbs_of_outside h, Nat.sub_self]

theorem isqrt_restOfCircle {vmax : ℕ} (h : vmax < 2 ^ 32) (vd : ℤ) :
    isqrt (vmax * vmax - (clampI (-(vmax : ℤ)) vmax vd).natAbs * (clampI (-(vmax : ℤ)) vmax vd).natAbs) =
      Nat.sqrt (restOfCircle vmax vd) := by
  rw [← sq, ← sq]
  refine isqrt_eq_sqrt ((Nat.sub_le _ _).trans_lt ?_)
  calc vmax ^ 2 < (2 ^ 32) ^ 2 := Nat.pow_lt_pow_left h (by decide)
    _ = 2 ^ 64 := by norm_num

theorem limitVoltage_eq {vmax : ℕ} (h : vmax < 2 ^ 32) (vd vq : ℤ) {q : ℤ} (hq : q = Nat.sqrt (restOfCircle vmax vd)) :
    limitVoltage vmax vd vq =
      { vd := clampI (-(vmax : ℤ)) vmax vd
        vq := clampI (-q) q vq
        flags := { dHigh := decide ((vmax : ℤ) < vd), dLow := decide (vd < -(vmax : ℤ)), qHigh := decide (q < vq),
                   qLow := decide (vq < -q) } } := by
  rw [limitVoltage, isqrt_restOfCircle h, ← hq]
  rfl

/-- The limited vector lies in the circle of radius Vmax. -/
theorem limited_in_circle (vmax : ℕ) (vd vq : ℤ) {q : ℤ} (hq : q = Nat.sqrt (restOfCircle vmax vd)) :
    clampI (-(vmax : ℤ)) vmax vd ^ 2 + clampI (-q) q vq ^ 2 ≤ (vmax : ℤ) ^ 2 := by
  subst hq
  set d := clampI (-(vmax : ℤ)) vmax vd
  set root := Nat.sqrt (restOfCircle vmax vd)
  have dFits : d.natAbs ^ 2 ≤ vmax ^ 2 := Nat.pow_le_pow_left (clampI_natAbs_le vmax vd) 2
  have qFits : (clampI (-(root : ℤ)) root vq).natAbs ^ 2 ≤ vmax ^ 2 - d.natAbs ^ 2 :=
    (Nat.pow_le_pow_left (clampI_natAbs_le root vq) 2).trans (Nat.sqrt_le' _)
  rw [← Int.natAbs_sq d, ← Int.natAbs_sq (clampI _ _ vq)]
  exact_mod_cast (by omega : d.natAbs ^ 2 + (clampI (-(root : ℤ)) root vq).natAbs ^ 2 ≤ vmax ^ 2)

theorem compute_limited (f : Flight) :
    (compute f).limited = limitVoltage (voltageMax f) (compute f).pi.vd (compute f).pi.vq := rfl

theorem voltageMax_eq (f : Flight) : voltageMax f = max f.vdc 100 * 18919 * f.limitsG.mlim / 2 ^ 30 := rfl

/-- Settles O24: the model's root is `Nat.sqrt` on 64 bits, and the two clamps keep the vector in the circle. -/
theorem voltageLimit : Obligations.VoltageLimit := by
  refine ⟨?_, fun _ _ => rfl, fun _ _ _ => rfl, fun _ _ _ _ => ⟨rfl, rfl, rfl⟩⟩
  intro f vmax vd vq q hvmax small hvd hvq hq
  have limited := limitVoltage_eq small vd vq hq
  rw [compute_limited, voltageMax_eq, ← hvmax, ← hvd, ← hvq, limited]
  refine ⟨rfl, ?_, ?_, fun outside => ?_, limited_in_circle vmax vd vq hq⟩
  · rw [hq]; exact Int.natCast_nonneg _
  · rw [hq]; exact_mod_cast sqrt_restOfCircle_le vmax vd
  · have noRest : q = 0 := by
      rw [hq]; exact_mod_cast congrArg Nat.sqrt (restOfCircle_of_outside outside)
    exact ⟨noRest, by rw [noRest]; exact clampI_zero vq⟩

/-! ### The shaped references of R63 and R64 -/

theorem qLimit_eq (f : Flight) (n : Intake) :
    qLimit f n = if n.peak = true ∧ 0 < f.allowance then f.limitsG.ipk else f.limitsG.icont := by
  simp [qLimit]

theorem polarIq_eq (f : Flight) (n : Intake) :
    polarIq f n = if f.reversed then clampI (-32767) 32767 (-n.iqRef) else n.iqRef := rfl

theorem shapedIq_eq (f : Flight) (n : Intake) :
    shapedIq f n = max (-(qLimit f n : ℤ)) (min (qLimit f n) (polarIq f n)) := rfl

theorem intake_scale (f : Flight) (x : ℕ) : intake { f with scale := x } = intake f := rfl

/-- Settles O20: neither the intake nor the shaping reads the grant scale. -/
theorem qLimitAndDemand : Obligations.QLimitAndDemand := by
  intro f l iq hl hiq
  refine ⟨?_, rfl, rfl, fun x => ?_⟩
  · rw [shapedIq_eq, qLimit_eq, polarIq_eq, ← hl, ← hiq]
  · rw [intake_scale]
    exact ⟨rfl, rfl⟩

/-! ### The measurement of R69 -/

theorem measurement_of_sample {f : Flight} {ia ib : ℤ} (h : f.sample = some (ia, ib)) (n : Intake) :
    measurement f n = measure n.theta ia ib := by
  rw [measurement, h]

/-- Settles O22: on a valid sample the measurement is `measure` at the angle of stage 1. -/
theorem measurementOfSample : Obligations.MeasurementOfSample := by
  intro f ia ib a b st on d hsample ha hb
  have taken : (compute f).meas = measure (intake f).theta ia ib := measurement_of_sample hsample _
  subst ha hb
  exact ⟨taken, rfl⟩

/-! ### The output angle of R76 -/

theorem outputAngle_of_still {n : Intake} (h : n.dTheta = 0) : outputAngle n = n.theta := by
  simp [outputAngle, h, roundDiv]

/-- Settles O25: the lead of one and a half steps, and the two voltages taken at the angle it gives. -/
theorem outputAngleAndPark : Obligations.OutputAngleAndPark := by
  refine ⟨fun _ => rfl, fun _ => outputAngle_of_still, by decide, by decide, ?_, fun _ => rfl, fun _ _ => rfl⟩
  rintro theta vd vq alpha beta vb rfl rfl rfl
  rfl

end Sys2Proof.Machine

/-! SUPPORT. The CRC of a frame (R123): its register as a one-to-one map, so that the equivalent test and the detection of a changed
byte hold for frames of every length; and the request NOP (R129). -/

namespace Sys2Proof.Machine

/-! ### The register of the CRC -/

theorem crcByte_eq_iterate (r b : Byte) : crcByte r b = crcShift^[8] (r ^^^ b) := rfl

theorem crc8_append_byte (bytes : List Byte) (b : Byte) : crc8 (bytes ++ [b]) = crcByte (crc8 bytes) b := by
  simp [crc8]

/-- The generator ends in 1, so that the lowest bit after a shift is the bit shifted out. -/
theorem crcShift_lowest (r : Byte) : (crcShift r).getLsbD 0 = r.msb := by
  unfold crcShift
  split <;> simp [*]

/-- Only the top bit is lost by a shift to the left. -/
theorem eq_of_msb_eq_of_shiftLeft_eq {r q : Byte} (top : r.msb = q.msb) (low : r <<< 1 = q <<< 1) : r = q := by
  simp only [BitVec.msb_eq_decide, decide_eq_decide] at top
  bv_omega

theorem crcShift_injective : Function.Injective crcShift := by
  intro r q same
  have top : r.msb = q.msb := by rw [← crcShift_lowest, same, crcShift_lowest]
  refine eq_of_msb_eq_of_shiftLeft_eq top ?_
  simp only [crcShift, top] at same
  split at same
  · exact (BitVec.xor_left_inj _).mp same
  · exact same

theorem crcByte_left_injective (b : Byte) : Function.Injective (crcByte · b) := fun _ _ same =>
  (BitVec.xor_left_inj b).mp (crcShift_injective.iterate 8 same)

theorem crcByte_right_injective (r : Byte) : Function.Injective (crcByte r) := fun _ _ same =>
  (BitVec.xor_right_inj r).mp (crcShift_injective.iterate 8 same)

/-- The register comes to 0 exactly on the byte that equals it: 0 is a fixed point of the shift, which is one to one. -/
theorem crcByte_eq_zero_iff (r b : Byte) : crcByte r b = 0 ↔ b = r := by
  have fixed : crcShift^[8] 0 = 0 := Function.iterate_fixed rfl 8
  rw [crcByte_eq_iterate, (crcShift_injective.iterate 8).eq_iff' fixed]
  exact BitVec.xor_eq_zero_iff.trans eq_comm

/-- The two tests of a CRC byte agree. -/
theorem crc8_append_eq_zero_iff (bytes : List Byte) (b : Byte) : crc8 (bytes ++ [b]) = 0 ↔ b = crc8 bytes := by
  rw [crc8_append_byte]
  exact crcByte_eq_zero_iff _ _

theorem foldl_crcByte_injective (bytes : List Byte) : Function.Injective (fun r : Byte => bytes.foldl crcByte r) := by
  induction bytes with
  | nil => exact Function.injective_id
  | cons b bytes ih => exact ih.comp (crcByte_left_injective b)

theorem foldl_crcByte_set_ne {bytes : List Byte} {n : ℕ} {x y : Byte} (r : Byte) (at_n : bytes[n]? = some x) (changed : y ≠ x) :
    (bytes.set n y).foldl crcByte r ≠ bytes.foldl crcByte r := by
  induction bytes generalizing n r with
  | nil => cases at_n
  | cons b bytes ih =>
    cases n with
    | zero =>
      obtain rfl : b = x := Option.some.inj at_n
      exact (foldl_crcByte_injective bytes).ne ((crcByte_right_injective r).ne changed)
    | succ n => exact ih _ at_n

/-- A change within one byte changes the CRC. -/
theorem crc8_set_ne {bytes : List Byte} {n : ℕ} {x y : Byte} (at_n : bytes[n]? = some x) (changed : y ≠ x) :
    crc8 (bytes.set n y) ≠ crc8 bytes := foldl_crcByte_set_ne 0xFF at_n changed

theorem flip_bit_ne (x : Byte) (j : Fin 8) : x ^^^ (1 <<< j.val) ≠ x := by
  have bit_ne_zero : ∀ j : Fin 8, (1 : Byte) <<< j.val ≠ 0 := by decide
  intro same
  exact bit_ne_zero j ((BitVec.xor_right_inj x).mp (same.trans BitVec.xor_zero.symm))

/-! ### The check of a frame's CRC -/

/-- Of a frame of fitting length, clocked whole, only the CRC and the kind are left to check. -/
theorem checkFrame_body (kind b : Byte) {payload : List Byte} (fits : payload.length ≤ 60) :
    checkFrame (frameBody kind payload ++ [b]) true =
      if b = crc8 (frameBody kind payload) then (kindOf kind).elim (.error .kind) (fun k => .ok (k, payload))
      else .error .crc := by
  have len : (BitVec.ofNat 8 payload.length).toNat = payload.length :=
    (BitVec.toNat_ofNat _ _).trans (Nat.mod_eq_of_lt (by omega))
  have short : ¬ Config.maxPayload < payload.length := not_lt.mpr fits
  simp only [frameBody, List.cons_append, checkFrame, len, short]
  by_cases agrees : b = crc8 (kind :: BitVec.ofNat 8 payload.length :: payload)
  · cases kindOf kind <;> simp [agrees]
  · simp [agrees]

theorem checkFrame_crc_iff (kind b : Byte) {payload : List Byte} (fits : payload.length ≤ 60) :
    checkFrame (frameBody kind payload ++ [b]) true = .error .crc ↔ b ≠ crc8 (frameBody kind payload) := by
  rw [checkFrame_body kind b fits]
  split
  · next agrees => cases kindOf kind <;> simp [agrees]
  · next differs => exact iff_of_true rfl differs

theorem checkFrame_request (k : Kind) {payload : List Byte} (fits : payload.length ≤ 60) :
    checkFrame (frameBody k.code payload ++ [crc8 (frameBody k.code payload)]) true = .ok (k, payload) := by
  rw [checkFrame_body _ _ fits, if_pos rfl, kindOf_code]
  rfl

/-! ### The worked pair of bytes -/

theorem crc8_worked_pair : crc8 [0x00, 0x00] = 0xB8 := by decide +kernel

theorem crc8_worked_frame : crc8 [0x00, 0x00, 0xB8] = 0 :=
  (crc8_append_eq_zero_iff [0x00, 0x00] 0xB8).mpr crc8_worked_pair.symm

theorem checkFrame_worked : checkFrame [0x00, 0x00, 0xB8] true = .ok (.nop, []) := by
  have formed : crc8 (frameBody Kind.nop.code []) = 0xB8 := crc8_worked_pair
  exact formed ▸ checkFrame_request .nop (payload := []) (by decide)

theorem crc8_worked_flip_ne (i : Fin 3) (j : Fin 8) (x : Byte) (at_i : [0x00, 0x00, 0xB8][i]? = some x) :
    crc8 ([0x00, 0x00, 0xB8].set i (x ^^^ (1 <<< j.val))) ≠ 0 :=
  (crc8_set_ne at_i (flip_bit_ne x j)).trans_eq crc8_worked_frame

/-- Settles O35: the register is one to one in what it held and in the byte it takes, and stays at 0 by itself. -/
theorem crcOfFrames : Obligations.CrcOfFrames := by
  refine ⟨fun _ => rfl, crc8_append_eq_zero_iff, fun kind b _ => checkFrame_crc_iff kind b, fun _ _ => rfl, ?_⟩
  exact ⟨by decide +kernel, by decide +kernel, crc8_worked_pair, checkFrame_worked, crc8_worked_flip_ne⟩

/-! ### NOP -/

/-- Every kind but NOP refuses the empty payload or one of a single byte. -/
theorem Kind.eq_nop_of_fitsLength {k : Kind} (empty : k.fitsLength [] = true) (single : k.fitsLength [0] = true) : k = .nop := by
  cases k with
  | nop => rfl
  | linkReset | status | events | discard | edgeClear => exact absurd single (by decide)
  | _ => exact absurd empty (by decide)

/-- Settles O38: NOP's judgement is the reply DONE alone, and every other kind asks something of its payload's length. -/
theorem nopIsDone : Obligations.NopIsDone := by
  refine ⟨fun s l payload takes fits => does_of_eq takes fits rfl rfl rfl, fun k every => ?_⟩
  exact Kind.eq_nop_of_fitsLength (every [] (by decide)) (every [0] (by decide))

end Sys2Proof.Machine

/-! SUPPORT. Events offered to a queue (R187): the three outcomes as equations, and the soundness of the queue that results. -/

namespace Sys2Proof.Machine

/-! ### The newest entry and the attention line -/

theorem QueueEntry.same_iff {e : QueueEntry} {k : EventKind} {ch : Option Channel} {d : Detail} :
    e.same k ch d = true ↔ e.kind = k ∧ e.channel = ch ∧ e.detail = d := by
  simp [QueueEntry.same, and_assoc]

theorem LinkIf.follow_of_queue_ne_nil {i : LinkIf} (nonempty : i.queue ≠ []) : i.follow = { i with attention := true } := by
  simp [LinkIf.follow, nonempty]

/-- The newest entry of the queue is of the same kind, channel and detail as the event. -/
def LinkIf.coalesces (i : LinkIf) (k : EventKind) (ch : Option Channel) (d : Detail) : Prop :=
  ∃ es e, i.queue = es ++ [e] ∧ e.kind = k ∧ e.channel = ch ∧ e.detail = d

/-! ### The three outcomes of an offer -/

theorem LinkIf.append_of_room {i : LinkIf} (e : QueueEntry) (room : i.queue.length < 12) :
    i.append e = { i with queue := i.queue ++ [e] } := if_pos room

theorem LinkIf.append_of_full {i : LinkIf} (e : QueueEntry) (full : 12 ≤ i.queue.length) :
    i.append e = { i with overrun := true } := if_neg (not_lt.mpr full)

section
variable {i : LinkIf} {k : EventKind} {ch : Option Channel} {d : Detail} {stamp : Word16}

theorem LinkIf.offer_of_newest_same {es : List QueueEntry} {e : QueueEntry} (newest : i.queue = es ++ [e])
    (same : e.same k ch d = true) :
    i.offer k ch d stamp = { i with queue := es ++ [{ e with count := min 255 (e.count + 1) }], attention := true } := by
  have last : i.queue.getLast? = some e := by simp [newest]
  have older : i.queue.dropLast = es := by simp [newest]
  simp only [LinkIf.offer, last, same, if_true, older]
  exact LinkIf.follow_of_queue_ne_nil (by simp)

theorem LinkIf.offer_of_not_coalesces (differs : ¬ i.coalesces k ch d) :
    i.offer k ch d stamp = (i.append { kind := k, channel := ch, detail := d, count := 1, stamp := stamp }).follow := by
  unfold LinkIf.offer
  split
  · next e last =>
    obtain ⟨es, newest⟩ := List.getLast?_eq_some_iff.mp last
    exact if_neg fun same => differs ⟨es, e, newest, QueueEntry.same_iff.mp same⟩
  · rfl

theorem LinkIf.offer_of_room (differs : ¬ i.coalesces k ch d) (room : i.queue.length < 12) :
    i.offer k ch d stamp =
      { i with queue := i.queue ++ [{ kind := k, channel := ch, detail := d, count := 1, stamp := stamp }],
               attention := true } := by
  rw [LinkIf.offer_of_not_coalesces differs, LinkIf.append_of_room _ room]
  exact LinkIf.follow_of_queue_ne_nil (by simp)

theorem LinkIf.offer_of_full (differs : ¬ i.coalesces k ch d) (full : 12 ≤ i.queue.length) :
    i.offer k ch d stamp = { i with overrun := true, attention := true } := by
  have nonempty : i.queue ≠ [] := List.ne_nil_of_length_pos (by omega)
  rw [LinkIf.offer_of_not_coalesces differs, LinkIf.append_of_full _ full]
  exact LinkIf.follow_of_queue_ne_nil nonempty

/-! ### Soundness -/

theorem LinkIf.offer_queueSound (sound : i.queueSound) : (i.offer k ch d stamp).queueSound := by
  obtain ⟨bound, counts, -⟩ := sound
  by_cases joins : i.coalesces k ch d
  · obtain ⟨es, e, newest, same⟩ := joins
    rw [LinkIf.offer_of_newest_same newest (QueueEntry.same_iff.mpr same)]
    simp only [newest, List.length_append, List.length_singleton, List.forall_mem_append, List.forall_mem_singleton]
      at bound counts
    obtain ⟨older, -⟩ := counts
    refine ⟨by simpa using bound, List.forall_mem_append.mpr ⟨older, List.forall_mem_singleton.mpr ?_⟩, by simp⟩
    exact ⟨by simp, min_le_left _ _⟩
  · rcases lt_or_ge i.queue.length 12 with room | full
    · rw [LinkIf.offer_of_room joins room]
      refine ⟨by simpa using room, List.forall_mem_append.mpr ⟨counts, List.forall_mem_singleton.mpr ?_⟩, by simp⟩
      exact ⟨le_rfl, by simp⟩
    · rw [LinkIf.offer_of_full joins full]
      exact ⟨bound, counts, by simp⟩

end

/-! ### The queues an event of a channel goes to -/

section
variable {p : Part} {c : Channel}

theorem Part.sendChannel_of_unheld (k : EventKind) (d : Detail) (unheld : p.binding.holders.get c = none) :
    p.sendChannel k c d = p.send .s k (some c) d := by
  simp only [Part.sendChannel, unheld]

theorem Part.sendChannel_of_held (k : EventKind) (d : Detail) {m : Motion} (held : p.binding.holders.get c = some m) :
    p.sendChannel k c d = (p.send m.link k (some c) d).send .s k (some c) d := by
  simp only [Part.sendChannel, held]

end

/-- Settles O28: the newest entry decides whether the event coalesces, and the queue's length whether it is kept. -/
theorem eventsCoalesceAppendOrDrop : Obligations.EventsCoalesceAppendOrDrop := by
  refine ⟨fun i k ch d stamp => ⟨?_, ?_, LinkIf.offer_queueSound⟩, fun p k c d => ⟨fun _ _ => rfl, ?_, ?_⟩⟩
  · intro es e newest kind channel detail
    exact LinkIf.offer_of_newest_same newest (QueueEntry.same_iff.mpr ⟨kind, channel, detail⟩)
  · intro differs
    have apart : ¬ i.coalesces k ch d := fun ⟨es, e, newest, same⟩ => differs es e newest same
    exact ⟨LinkIf.offer_of_room apart, LinkIf.offer_of_full apart⟩
  · exact Part.sendChannel_of_unheld k d
  · exact fun _ => Part.sendChannel_of_held k d

end Sys2Proof.Machine

/-! SUPPORT. The properties that every step keeps, as one relation between the part before and after an operation: which changes of one
block keep all of them, and which changes of one channel's items do. -/

namespace Sys2Proof.Machine

/-! ### The properties, channel by channel -/

/-- The legs of a channel outside RUN and HOLD are off, and outside CAPTURE it has no pending setpoint. -/
def Part.offAt (p : Part) (c : Channel) : Prop :=
  (p.stateOf c).bridgeOn = false →
    (p.carrier.drives.get c).legs = .off ∧ (p.carrier.drives.get c).onTimes = .zero ∧
    (p.carrier.drives.get c).waiting = none ∧ ((p.stateOf c).active = false → (p.ctx.get c).setpoint = none)

/-- The offsets of a channel lie within 2048 +- Ro. -/
def Part.offsetsAt (p : Part) (c : Channel) : Prop :=
  ((p.sense.get c).offA - 2048).natAbs ≤ (p.ctx.get c).senseG.ro ∧
    ((p.sense.get c).offB - 2048).natAbs ≤ (p.ctx.get c).senseG.ro

/-- FAULT goes with a cause, and a cause with FAULT or SAFE_OFF. -/
def Part.causesAt (p : Part) (c : Channel) : Prop :=
  (p.stateOf c = .fault → p.causesOf c ≠ .empty) ∧
    (p.causesOf c ≠ .empty → p.stateOf c = .fault ∨ p.stateOf c = .safeOff)

/-- The carrier's own settings lie in their ranges, and both slot tables are one to one. -/
def Carrier.settingsSound (k : Carrier) : Prop :=
  (periodSound k.period ∧ (∀ n, k.pendingP = some n → periodSound n)) ∧
  (k.blank ≤ 600 ∧ 1 ≤ k.divider ∧ k.divider ≤ 16 ∧ k.syncCount < k.divider) ∧
  (tableSound k.table ∧ ∀ t, k.pendingTable = some t → tableSound t)

theorem Part.settingsSound_iff (p : Part) :
    p.settingsSound ↔ p.carrier.settingsSound ∧ (∀ c, p.bus.scale.get c ≤ 4096) ∧ ∀ c, p.offsetsAt c := by
  constructor
  · rintro ⟨period, blank, table, items⟩
    exact ⟨⟨period, blank, table⟩, fun c => (items c).1, fun c => (items c).2⟩
  · rintro ⟨⟨period, blank, table⟩, scales, offsets⟩
    exact ⟨period, blank, table, fun c => ⟨scales c, offsets c⟩⟩

/-! ### The relation -/

/-- The part `q` has each property of a step that the part `p` has, but for the one of the torque flags. -/
structure Keeps (p q : Part) : Prop where
  bridge : p.bridgeOffIsOff → q.bridgeOffIsOff
  queues : p.queuesSound → q.queuesSound
  replies : p.repliesAndBatchesSound → q.repliesAndBatchesSound
  limits : p.limitsOrdered → q.limitsOrdered
  settings : p.settingsSound → q.settingsSound
  binding : p.bindingSound → q.bindingSound
  causes : p.causesSound → q.causesSound

/-- The part `q` has each property of a step that the part `p` has. -/
structure Steady (p q : Part) : Prop extends Keeps p q where
  torque : p.torqueSound → q.torqueSound

theorem Keeps.refl (p : Part) : Keeps p p := ⟨id, id, id, id, id, id, id⟩

theorem Steady.refl (p : Part) : Steady p p := ⟨Keeps.refl p, id⟩

theorem Keeps.trans {p q r : Part} (h : Keeps p q) (k : Keeps q r) : Keeps p r :=
  ⟨k.bridge ∘ h.bridge, k.queues ∘ h.queues, k.replies ∘ h.replies, k.limits ∘ h.limits, k.settings ∘ h.settings,
    k.binding ∘ h.binding, k.causes ∘ h.causes⟩

theorem Steady.trans {p q r : Part} (h : Steady p q) (k : Steady q r) : Steady p r :=
  ⟨h.toKeeps.trans k.toKeeps, k.torque ∘ h.torque⟩

theorem Keeps.forChannels (f : Channel → Part → Part) (h : ∀ c p, Keeps p (f c p)) (cs : List Channel) (p : Part) :
    Keeps p (p.forChannels cs f) :=
  Part.forChannels_keeps (Keeps p) f (fun c _ hq => hq.trans (h c _)) cs p (Keeps.refl p)

theorem Steady.forChannels (f : Channel → Part → Part) (h : ∀ c p, Steady p (f c p)) (cs : List Channel) (p : Part) :
    Steady p (p.forChannels cs f) :=
  Part.forChannels_keeps (Steady p) f (fun c _ hq => hq.trans (h c _)) cs p (Steady.refl p)

/-! ### Changes of one block -/

/-- The interface `j` has the properties of a queue and of a reply that the interface `i` has. -/
def LinkIf.kept (i j : LinkIf) : Prop := (i.queueSound → j.queueSound) ∧ (i.reply.sound → j.reply.sound)

theorem LinkIf.kept_refl (i : LinkIf) : i.kept i := ⟨id, id⟩

theorem LinkIf.kept.trans {i j k : LinkIf} (h : i.kept j) (h' : j.kept k) : i.kept k :=
  ⟨h'.1 ∘ h.1, h'.2 ∘ h.2⟩

theorem Steady.links (p : Part) (ls : Three LinkIf) (h : ∀ l, (p.links.get l).kept (ls.get l)) :
    Steady p { p with links := ls } :=
  ⟨⟨id, fun sound l => (h l).1 (sound l), fun sound => ⟨fun l => (h l).2 (sound.1 l), sound.2⟩, id, id, id, id⟩, id⟩

theorem Steady.modLink (p : Part) (l : Link) (f : LinkIf → LinkIf) (h : (p.links.get l).kept (f (p.links.get l))) :
    Steady p (p.modLink l f) := by
  refine Steady.links p _ fun k => ?_
  by_cases e : l = k
  · subst e; rw [Three.get_set_same]; exact h
  · rw [Three.get_set_ne _ _ e]; exact LinkIf.kept_refl _

/-- A batch that is absent, or holds 1 to 8 records. -/
theorem Steady.batch (p : Part) (m : Motion) (b : Option (List Record)) (h : ∀ rs, b = some rs → 1 ≤ rs.length ∧ rs.length ≤ 8) :
    Steady p { p with batches := p.batches.set m b } := by
  refine ⟨⟨id, id, fun sound => ⟨sound.1, fun n rs e => ?_⟩, id, id, id, id⟩, id⟩
  by_cases same : m = n
  · subst same; exact h rs (by rwa [Two.get_set_same] at e)
  · exact sound.2 n rs (by rwa [Two.get_set_ne _ _ same] at e)

/-- The carrier's own settings changed, the drives of the channels left as they are. -/
theorem Steady.carrier (p : Part) (k : Carrier) (drives : k.drives = p.carrier.drives)
    (h : p.carrier.settingsSound → k.settingsSound) : Steady p { p with carrier := k } := by
  refine ⟨⟨fun sound => ?_, id, id, id, fun sound => ?_, id, id⟩, id⟩
  · obtain ⟨held, off⟩ := sound
    refine ⟨held, fun c => ?_⟩
    show _ → (k.drives.get c).legs = _ ∧ (k.drives.get c).onTimes = _ ∧ (k.drives.get c).waiting = _ ∧ _
    rw [drives]
    exact off c
  · rw [Part.settingsSound_iff] at sound ⊢
    exact ⟨h sound.1, sound.2⟩

/-- The bus unit changed, every grant scale within its range. -/
theorem Steady.bus (p : Part) (b : Bus) (h : (∀ c, p.bus.scale.get c ≤ 4096) → ∀ c, b.scale.get c ≤ 4096) :
    Steady p { p with bus := b } := by
  refine ⟨⟨id, id, id, id, fun sound => ?_, id, id⟩, id⟩
  rw [Part.settingsSound_iff] at sound ⊢
  exact ⟨sound.1, h sound.2.1, sound.2.2⟩

theorem Steady.seen (p : Part) (sn : Three (Six CauseSet)) :
    Steady p { p with faults := { p.faults with seen := sn } } :=
  ⟨⟨id, id, id, id, id, id, id⟩, id⟩

theorem Steady.bindingUnit (p : Part) (b : Binding) (h : p.bindingSound → ({ p with binding := b } : Part).bindingSound) :
    Steady p { p with binding := b } :=
  ⟨⟨id, id, id, id, id, h, id⟩, id⟩

/-- The torque input logic changed. -/
theorem Keeps.torqueUnit (p : Part) (t : Torque) : Keeps p { p with torque := t } :=
  ⟨id, id, id, id, id, id, id⟩

/-! ### Changes of one channel -/

/-- Of `p` only the items of channel `c`, the seen sets, and the event queues are changed in `q`. -/
structure OnlyAt (c : Channel) (p q : Part) : Prop where
  held : q.held = p.held
  links : ∀ l, (p.links.get l).kept (q.links.get l)
  batches : q.batches = p.batches
  binding : q.binding = p.binding
  carrier : { q.carrier with drives := p.carrier.drives } = p.carrier
  bus : q.bus = p.bus
  torque : q.torque = p.torque
  ctx : ∀ d, c ≠ d → q.ctx.get d = p.ctx.get d
  drives : ∀ d, c ≠ d → q.carrier.drives.get d = p.carrier.drives.get d
  sense : ∀ d, c ≠ d → q.sense.get d = p.sense.get d
  causes : ∀ d, c ≠ d → q.causesOf d = p.causesOf d

namespace OnlyAt

theorem refl (c : Channel) (p : Part) : OnlyAt c p p :=
  ⟨rfl, fun _ => LinkIf.kept_refl _, rfl, rfl, rfl, rfl, rfl, fun _ _ => rfl, fun _ _ => rfl, fun _ _ => rfl, fun _ _ => rfl⟩

theorem trans {c : Channel} {p q r : Part} (h : OnlyAt c p q) (k : OnlyAt c q r) : OnlyAt c p r where
  held := k.held.trans h.held
  links l := (h.links l).trans (k.links l)
  batches := k.batches.trans h.batches
  binding := k.binding.trans h.binding
  carrier := by
    have first := h.carrier
    have second := k.carrier
    cases hp : p.carrier; cases hq : q.carrier; cases hr : r.carrier
    simp_all
  bus := k.bus.trans h.bus
  torque := k.torque.trans h.torque
  ctx d e := (k.ctx d e).trans (h.ctx d e)
  drives d e := (k.drives d e).trans (h.drives d e)
  sense d e := (k.sense d e).trans (h.sense d e)
  causes d e := (k.causes d e).trans (h.causes d e)

theorem modCtx (p : Part) (c : Channel) (f : Context → Context) : OnlyAt c p (p.modCtx c f) :=
  { refl c p with ctx := fun _ e => Six.get_set_ne _ _ e }

theorem modSense (p : Part) (c : Channel) (f : Sense → Sense) : OnlyAt c p (p.modSense c f) :=
  { refl c p with sense := fun _ e => Six.get_set_ne _ _ e }

theorem modDrive (p : Part) (c : Channel) (f : Drive → Drive) : OnlyAt c p (p.modDrive c f) :=
  { refl c p with drives := fun _ e => Six.get_set_ne _ _ e }

theorem setCauses (p : Part) (c : Channel) (x : CauseSet) : OnlyAt c p (p.setCauses c x) :=
  { refl c p with causes := fun _ e => Six.get_set_ne _ _ e }

theorem setSeen (p : Part) (c : Channel) (l : Link) (d : Channel) (x : CauseSet) : OnlyAt c p (p.setSeen l d x) :=
  { refl c p with }

theorem send (p : Part) (c : Channel) (l : Link) (k : EventKind) (ch : Option Channel) (d : Detail) :
    OnlyAt c p (p.send l k ch d) where
  __ := refl c p
  links k' := by
    rw [Part.send_links]
    by_cases e : l = k'
    · subst e
      rw [Three.get_set_same]
      exact ⟨LinkIf.offer_queueSound, fun sound => (LinkIf.offer_keeps _ _ _ _ _).1.symm ▸ sound⟩
    · rw [Three.get_set_ne _ _ e]; exact LinkIf.kept_refl _

theorem sendChannel (p : Part) (c : Channel) (k : EventKind) (c' : Channel) (d : Detail) : OnlyAt c p (p.sendChannel k c' d) := by
  unfold Part.sendChannel
  split
  · exact (send ..).trans (send ..)
  · exact send ..

theorem recordCause (p : Part) (x : Cause) (c : Channel) : OnlyAt c p (p.recordCause x c) :=
  (((setCauses ..).trans (setSeen ..)).trans (setSeen ..)).trans (setSeen ..)

theorem enter (p : Part) (c : Channel) (st : ChState) : OnlyAt c p (p.enter c st) :=
  (modCtx ..).trans (sendChannel ..)

theorem leaveActive (p : Part) (c : Channel) : OnlyAt c p (p.leaveActive c) := by
  have on : OnlyAt c p (p.leaveBridgeOn c) := ((modDrive ..).trans (modCtx ..)).trans (modSense ..)
  have capture : OnlyAt c p (p.leaveCapture c) := (modCtx ..).trans (modSense ..)
  unfold Part.leaveActive
  cases p.stateOf c with
  | run => exact on
  | hold => exact on
  | capture => exact capture
  | off | fault | safeOff => exact refl c p

theorem leaveTo (p : Part) (c : Channel) (st : ChState) : OnlyAt c p (p.leaveTo c st) :=
  (leaveActive ..).trans (enter ..)

theorem raiseOne (p : Part) (x : Cause) (c : Channel) : OnlyAt c p (p.raiseOne x c) := by
  have recorded := (recordCause p x c).trans (sendChannel _ c .faultRaised c (.cause x))
  unfold Part.raiseOne
  dsimp only
  split
  · exact recorded.trans (leaveTo ..)
  · exact recorded

theorem safeOff (p : Part) (c : Channel) : OnlyAt c p (p.safeOff c) := by
  unfold Part.safeOff
  split
  · exact refl c p
  · exact ((leaveActive ..).trans (modCtx ..)).trans (sendChannel ..)

section
variable {c : Channel} {p q : Part}

theorem stateOf (h : OnlyAt c p q) {d : Channel} (e : c ≠ d) : q.stateOf d = p.stateOf d :=
  congrArg Context.state (h.ctx d e)

theorem mapChannels (h : OnlyAt c p q) (m : Motion) : q.mapChannels m = p.mapChannels m := by
  unfold Part.mapChannels; rw [h.binding]

theorem carrier_settings (h : OnlyAt c p q) (sound : p.carrier.settingsSound) : q.carrier.settingsSound := by
  have e := h.carrier
  rw [← e] at sound
  exact sound

/-- A change of one channel keeps the properties when its items keep theirs, and when it becomes active only while RESET is high and
a slot map names it. -/
theorem keeps (h : OnlyAt c p q)
    (active : (q.stateOf c).active = true → (p.stateOf c).active = true ∨ p.held = false ∧ c ∈ p.mapChannels .a ++ p.mapChannels .b)
    (off : p.offAt c → q.offAt c) (limits : (p.ctx.get c).limitsOrdered → (q.ctx.get c).limitsOrdered)
    (offsets : p.offsetsAt c → q.offsetsAt c) (causes : p.causesAt c → q.causesAt c) : Keeps p q where
  bridge := by
    rintro ⟨held, offs⟩
    refine ⟨fun isHeld d => ?_, fun d => ?_⟩
    · rw [h.held] at isHeld
      by_cases e : c = d
      · subst e
        by_contra turns
        rcases active (by simpa using turns) with before | ⟨released, -⟩
        · rw [held isHeld c] at before; cases before
        · rw [isHeld] at released; cases released
      · rw [h.stateOf e]; exact held isHeld d
    · by_cases e : c = d
      · subst e; exact off (offs c)
      · rw [h.stateOf e, h.drives d e, h.ctx d e]; exact offs d
  queues sound l := (h.links l).1 (sound l)
  replies sound := ⟨fun l => (h.links l).2 (sound.1 l), h.batches ▸ sound.2⟩
  limits sound d := by
    by_cases e : c = d
    · subst e; exact limits (sound c)
    · rw [h.ctx d e]; exact sound d
  settings := by
    rw [Part.settingsSound_iff, Part.settingsSound_iff]
    rintro ⟨carrier, scales, offs⟩
    refine ⟨h.carrier_settings carrier, h.bus ▸ scales, fun d => ?_⟩
    by_cases e : c = d
    · subst e; exact offsets (offs c)
    · unfold Part.offsetsAt; rw [h.ctx d e, h.sense d e]; exact offs d
  binding := by
    rintro ⟨once, holders, mapped⟩
    unfold Part.bindingSound
    rw [h.mapChannels, h.mapChannels, h.binding]
    refine ⟨once, fun m => h.mapChannels m ▸ holders m, fun d isActive => ?_⟩
    by_cases e : c = d
    · subst e
      rcases active isActive with before | ⟨-, named⟩
      · exact mapped c before
      · exact named
    · rw [h.stateOf e] at isActive; exact mapped d isActive
  causes sound d := by
    by_cases e : c = d
    · subst e; exact causes (sound c)
    · rw [h.stateOf e, h.causes d e]; exact sound d

/-- The same with the torque flags, when the channel neither enters nor leaves SAFE_OFF. -/
theorem steady (h : OnlyAt c p q) (keeps : Keeps p q) (safe : q.stateOf c = .safeOff ↔ p.stateOf c = .safeOff) : Steady p q where
  toKeeps := keeps
  torque := by
    rintro ⟨ten, flags⟩
    unfold Part.torqueSound
    rw [h.torque]
    refine ⟨ten, fun d => ?_⟩
    by_cases e : c = d
    · subst e; exact safe.trans (flags c)
    · rw [h.stateOf e]; exact flags d

/-- A change of one channel that leaves its state and its causes. -/
theorem steady_of_state (h : OnlyAt c p q) (state : q.stateOf c = p.stateOf c) (sameCauses : q.causesOf c = p.causesOf c)
    (off : p.offAt c → q.offAt c) (limits : (p.ctx.get c).limitsOrdered → (q.ctx.get c).limitsOrdered)
    (offsets : p.offsetsAt c → q.offsetsAt c) : Steady p q := by
  refine h.steady (h.keeps (fun isActive => Or.inl (state ▸ isActive)) off limits offsets ?_) (by rw [state])
  unfold Part.causesAt
  rw [state, sameCauses]
  exact id

end

end OnlyAt

/-! ### Events, replies and the ends of frames -/

/-- An event, and any change that only the event queues see, keeps the properties. -/
theorem steady_of_onlyAt_all {p q : Part} (h : ∀ c, OnlyAt c p q) : Steady p q := by
  have ctx : ∀ d, q.ctx.get d = p.ctx.get d := fun d => (h (d + 1)).ctx d (by fin_cases d <;> decide)
  have drives : ∀ d, q.carrier.drives.get d = p.carrier.drives.get d := fun d => (h (d + 1)).drives d (by fin_cases d <;> decide)
  have sense : ∀ d, q.sense.get d = p.sense.get d := fun d => (h (d + 1)).sense d (by fin_cases d <;> decide)
  have causes : ∀ d, q.causesOf d = p.causesOf d := fun d => (h (d + 1)).causes d (by fin_cases d <;> decide)
  refine (h 0).steady_of_state (congrArg Context.state (ctx 0)) (causes 0) ?_ ?_ ?_
  · unfold Part.offAt Part.stateOf; rw [ctx, drives]; exact id
  · rw [ctx]; exact id
  · unfold Part.offsetsAt; rw [ctx, sense]; exact id

theorem steady_send (p : Part) (l : Link) (k : EventKind) (ch : Option Channel) (d : Detail) : Steady p (p.send l k ch d) :=
  steady_of_onlyAt_all fun c => OnlyAt.send p c l k ch d

theorem steady_sendChannel (p : Part) (k : EventKind) (c : Channel) (d : Detail) : Steady p (p.sendChannel k c d) :=
  steady_of_onlyAt_all fun c' => OnlyAt.sendChannel p c' k c d

end Sys2Proof.Machine

/-! SUPPORT. The operations of the units keep the properties: causes and changes of state, the sense unit, the carrier unit, the current
loop engine and the bus budget unit, up to the due steps. -/

namespace Sys2Proof.Machine

/-! ### Leaving a state: the items of the channel -/

theorem Part.leaveActive_context (p : Part) (c : Channel) :
    (p.leaveActive c).ctx.get c =
      if (p.stateOf c).bridgeOn then (p.ctx.get c).leaveBridgeOn
      else if (p.stateOf c).active then { p.ctx.get c with setpoint := none } else p.ctx.get c := by
  cases h : p.stateOf c <;>
    simp [Part.leaveActive, h, Part.leaveBridgeOn, Part.leaveCapture, ChState.bridgeOn, ChState.active]

theorem Part.leaveActive_drive (p : Part) (c : Channel) :
    (p.leaveActive c).carrier.drives.get c =
      if (p.stateOf c).bridgeOn then { p.carrier.drives.get c with onTimes := .zero, waiting := none, legs := .off }
      else p.carrier.drives.get c := by
  cases h : p.stateOf c <;> simp [Part.leaveActive, h, Part.leaveBridgeOn, Part.leaveCapture, ChState.bridgeOn]

theorem Part.leaveActive_offsets (p : Part) (c : Channel) :
    ((p.leaveActive c).sense.get c).offA = (p.sense.get c).offA ∧ ((p.leaveActive c).sense.get c).offB = (p.sense.get c).offB := by
  cases h : p.stateOf c <;> simp [Part.leaveActive, h, Part.leaveBridgeOn, Part.leaveCapture]

theorem Part.leaveActive_groups (p : Part) (c : Channel) :
    ((p.leaveActive c).ctx.get c).senseG = (p.ctx.get c).senseG ∧
      (((p.leaveActive c).ctx.get c).limitsOrdered ↔ (p.ctx.get c).limitsOrdered) := by
  rw [Part.leaveActive_context]
  split
  · exact ⟨rfl, Iff.rfl⟩
  · split <;> exact ⟨rfl, Iff.rfl⟩

/-- A channel that has left its state has its legs off, no on-times and no pending setpoint. -/
theorem Part.leaveActive_off {p : Part} {c : Channel} (off : p.offAt c) :
    ((p.leaveActive c).carrier.drives.get c).legs = .off ∧ ((p.leaveActive c).carrier.drives.get c).onTimes = .zero ∧
      ((p.leaveActive c).carrier.drives.get c).waiting = none ∧ ((p.leaveActive c).ctx.get c).setpoint = none := by
  rw [Part.leaveActive_drive, Part.leaveActive_context]
  by_cases on : (p.stateOf c).bridgeOn = true
  · simp [on, Context.leaveBridgeOn]
  · obtain ⟨legs, onTimes, waiting, setpoint⟩ := off (by simpa using on)
    by_cases active : (p.stateOf c).active = true
    · simp [on, active, legs, onTimes, waiting]
    · simp [on, active, legs, onTimes, waiting, setpoint]

theorem Part.leaveTo_context (p : Part) (c : Channel) (st : ChState) :
    (p.leaveTo c st).ctx.get c = { (p.leaveActive c).ctx.get c with state := st } := by
  simp [Part.leaveTo]

theorem Part.leaveTo_offAt {p : Part} {c : Channel} {st : ChState} (off : p.offAt c) : (p.leaveTo c st).offAt c := by
  obtain ⟨legs, onTimes, waiting, setpoint⟩ := Part.leaveActive_off off
  intro _
  rw [Part.leaveTo_context]
  simp only [Part.leaveTo, Part.enter_carrier]
  exact ⟨legs, onTimes, waiting, fun _ => setpoint⟩

theorem Part.leaveTo_limits (p : Part) (c : Channel) (st : ChState) :
    ((p.leaveTo c st).ctx.get c).limitsOrdered ↔ (p.ctx.get c).limitsOrdered := by
  rw [Part.leaveTo_context]
  exact (p.leaveActive_groups c).2

theorem Part.leaveTo_offsetsAt (p : Part) (c : Channel) (st : ChState) : (p.leaveTo c st).offsetsAt c ↔ p.offsetsAt c := by
  unfold Part.offsetsAt
  rw [Part.leaveTo_context]
  simp only [Part.leaveTo, Part.enter_sense, p.leaveActive_offsets c, p.leaveActive_groups c]

/-! ### Causes -/

theorem CauseSet.put_true_ne_empty (s : CauseSet) (x : Cause) : s.put true x ≠ .empty := by
  intro e
  have same := s.has_put_same x
  rw [e] at same
  cases x <;> cases same

theorem Part.raiseOne_causesAt (p : Part) (x : Cause) (c : Channel) : (p.raiseOne x c).causesAt c := by
  unfold Part.causesAt
  rw [Part.raiseOne_stateOf, Part.raiseOne_causesOf, if_pos rfl]
  refine ⟨fun _ => CauseSet.put_true_ne_empty _ _, fun _ => ?_⟩
  cases h : p.stateOf c <;> simp [ChState.faultable]

theorem ChState.not_faultable_iff (st : ChState) : ¬st.faultable = true ↔ st = .fault ∨ st = .safeOff := by
  cases st <;> simp [ChState.faultable]

/-- A raise on a channel, its partner left aside, with the two cases of R14. -/
theorem Part.raiseOne_eq (p : Part) (x : Cause) (c : Channel) :
    p.raiseOne x c =
      if (p.stateOf c).faultable then ((p.recordCause x c).sendChannel .faultRaised c (.cause x)).leaveTo c .fault
      else (p.recordCause x c).sendChannel .faultRaised c (.cause x) := rfl

theorem steady_raiseOne (p : Part) (x : Cause) (c : Channel) : Steady p (p.raiseOne x c) := by
  have only := OnlyAt.raiseOne p x c
  have state : (p.raiseOne x c).stateOf c = if (p.stateOf c).faultable then .fault else p.stateOf c := by
    rw [Part.raiseOne_stateOf]; simp
  set q := (p.recordCause x c).sendChannel .faultRaised c (.cause x) with hq
  have off : p.offAt c → q.offAt c := by simp [hq, Part.offAt, Part.stateOf]
  have ctx : q.ctx = p.ctx := by simp [hq]
  have offsets : q.offsetsAt c ↔ p.offsetsAt c := by simp [hq, Part.offsetsAt]
  refine only.steady (only.keeps ?_ ?_ ?_ ?_ fun _ => Part.raiseOne_causesAt p x c) ?_
  · rw [state]
    split
    · exact fun fault => nomatch fault
    · exact Or.inl
  all_goals rw [Part.raiseOne_eq, ← hq] at *
  · split
    · exact fun h => Part.leaveTo_offAt (off h)
    · exact off
  · split
    · rw [Part.leaveTo_limits, ctx]; exact id
    · rw [ctx]; exact id
  · split
    · rw [Part.leaveTo_offsetsAt, offsets]; exact id
    · exact offsets.mpr
  · rw [state]
    cases p.stateOf c <;> simp [ChState.faultable]

theorem steady_partnerRule (p : Part) (c : Channel) : Steady p (p.partnerRule c) := by
  unfold Part.partnerRule
  split
  · split
    · exact steady_raiseOne ..
    · exact Steady.refl p
  · exact Steady.refl p

theorem steady_raise (p : Part) (x : Cause) (c : Channel) : Steady p (p.raise x c) :=
  Part.raise_keeps (Steady p) (fun q x c hq => hq.trans (steady_raiseOne q x c)) p x c (steady_raiseOne p x c)

theorem steady_raiseOn (p : Part) (x : Cause) (cs : List Channel) : Steady p (p.raiseOn x cs) :=
  Steady.forChannels _ (fun c q => steady_raise q x c) cs p

/-! ### Changes of state without a cause -/

/-- A channel in CAPTURE, RUN or HOLD has no cause. -/
theorem Part.causesAt.none_of_active {p : Part} {c : Channel} (sound : p.causesAt c) (active : (p.stateOf c).active = true) :
    p.causesOf c = .empty := by
  by_contra some
  rcases sound.2 some with e | e <;> rw [e] at active <;> cases active

theorem ChState.active_of_bridgeOn {st : ChState} (on : st.bridgeOn = true) : st.active = true := by
  cases st with
  | run | hold => rfl
  | _ => cases on

theorem ChState.ne_safeOff_of_active {st : ChState} (active : st.active = true) : st ≠ .safeOff := by
  rintro rfl; cases active

theorem steady_stop (p : Part) (c : Channel) : Steady p (p.stop c) := by
  unfold Part.stop
  split
  · next active =>
    have only := OnlyAt.leaveTo p c .off
    have state : (p.leaveTo c .off).stateOf c = .off := by rw [Part.leaveTo_stateOf, if_pos rfl]
    refine only.steady (only.keeps ?_ Part.leaveTo_offAt (p.leaveTo_limits c .off).mpr (p.leaveTo_offsetsAt c .off).mpr ?_) ?_
    · rw [state]; exact fun h => nomatch h
    · intro sound
      have none : (p.leaveTo c .off).causesOf c = .empty := by
        rw [Part.causesOf, Part.leaveTo_faults]; exact sound.none_of_active active
      exact ⟨fun h => absurd (state ▸ h) (by decide), fun h => absurd none h⟩
    · rw [state]; exact iff_of_false (fun h => nomatch h) (ChState.ne_safeOff_of_active active)
  · exact Steady.refl p

/-- A channel in CAPTURE, RUN or HOLD that enters RUN or HOLD, with whatever drive and offsets within range. -/
theorem OnlyAt.steady_of_bridgeOn {c : Channel} {p q : Part} (only : OnlyAt c p q) (before : (p.stateOf c).active = true)
    (after : (q.stateOf c).bridgeOn = true) (causes : q.causesOf c = p.causesOf c)
    (limits : (p.ctx.get c).limitsOrdered → (q.ctx.get c).limitsOrdered) (offsets : p.offsetsAt c → q.offsetsAt c) :
    Steady p q := by
  refine only.steady (only.keeps (fun _ => Or.inl before) (fun _ off => ?_) limits offsets fun sound => ?_) ?_
  · rw [after] at off; cases off
  · rw [Part.causesAt, causes, sound.none_of_active before]
    exact ⟨fun fault => absurd (fault ▸ after) (by decide), fun h => absurd rfl h⟩
  · exact iff_of_false (ChState.ne_safeOff_of_active (ChState.active_of_bridgeOn after)) (ChState.ne_safeOff_of_active before)

theorem Part.enter_stateOf (p : Part) (c : Channel) (st : ChState) : (p.enter c st).stateOf c = st := by
  simp [Part.stateOf]

theorem steady_enter_of_bridgeOn (p : Part) (c : Channel) (st : ChState) (before : (p.stateOf c).active = true)
    (after : st.bridgeOn = true) : Steady p (p.enter c st) := by
  refine (OnlyAt.enter p c st).steady_of_bridgeOn before ((p.enter_stateOf c st).symm ▸ after) ?_ ?_ ?_
  · simp [Part.causesOf]
  · rw [Part.enter_ctx, Six.get_set_same]; exact id
  · unfold Part.offsetsAt; rw [Part.enter_ctx, Six.get_set_same, Part.enter_sense]; exact id

/-! ### The sense unit -/

/-- The sense unit's items of a channel changed, the offsets within range. -/
theorem steady_modSense (p : Part) (c : Channel) (f : Sense → Sense)
    (h : p.offsetsAt c → (p.modSense c f).offsetsAt c) : Steady p (p.modSense c f) :=
  (OnlyAt.modSense p c f).steady_of_state rfl rfl id id h

/-- The sense unit's items of a channel changed but for the offsets. -/
theorem steady_modSense_counters (p : Part) (c : Channel) (f : Sense → Sense)
    (h : ∀ u, (f u).offA = u.offA ∧ (f u).offB = u.offB) : Steady p (p.modSense c f) := by
  refine steady_modSense p c f fun sound => ?_
  unfold Part.offsetsAt
  rw [Part.modSense_sense, Six.get_set_same, (h _).1, (h _).2]
  exact sound

theorem steady_stepQuiet (p : Part) (c : Channel) : Steady p (p.stepQuiet c) :=
  steady_modSense_counters p c _ fun _ => ⟨rfl, rfl⟩

theorem steady_countDrop (p : Part) (c : Channel) : Steady p (p.countDrop c).1 := by
  unfold Part.countDrop
  dsimp only
  exact steady_modSense_counters p c _ fun _ => ⟨rfl, rfl⟩

theorem steady_captureSample (p : Part) (c : Channel) (a b : Raw) : Steady p (p.captureSample c a b).1 := by
  unfold Part.captureSample
  dsimp only
  exact steady_modSense_counters p c _ fun _ => ⟨rfl, rfl⟩

theorem steady_runSample (p : Part) (c : Channel) (a b : Raw) : Steady p (p.runSample c a b).1 := by
  unfold Part.runSample
  dsimp only
  exact steady_modSense_counters p c _ fun _ => ⟨rfl, rfl⟩

theorem steady_track (p : Part) (c : Channel) (a b : Raw) : Steady p (p.track c a b).1 := by
  simp only [Part.track]
  split
  · dsimp only
    refine steady_modSense p c _ fun sound => ?_
    unfold Part.offsetsAt
    rw [Part.modSense_sense, Six.get_set_same]
    exact sound
  · dsimp only
    exact steady_modSense_counters p c _ fun _ => ⟨rfl, rfl⟩

/-- A channel at rest: its quiet counter steps, or its sample is tracked. -/
theorem steady_restSample (p : Part) (c : Channel) (a b : Raw) (valid : Bool) :
    Steady p (if 0 < (p.sense.get c).quiet then (p.stepQuiet c, []) else if valid then p.track c a b else (p, [])).1 := by
  split
  · exact steady_stepQuiet p c
  · split
    · exact steady_track p c a b
    · exact Steady.refl p

theorem steady_senseSample (p : Part) (c : Channel) (a b : Raw) (valid : Bool) : Steady p (p.senseSample c a b valid).1 := by
  have onSample : Steady p (if valid then p.runSample c a b else p.countDrop c).1 := by
    split
    · exact steady_runSample p c a b
    · exact steady_countDrop p c
  unfold Part.senseSample
  cases p.stateOf c with
  | run => exact onSample
  | hold => exact onSample
  | capture =>
    refine (steady_stepQuiet p c).trans ?_
    dsimp only
    split
    · exact steady_captureSample _ c a b
    · exact steady_countDrop _ c
  | off | fault | safeOff => exact steady_restSample p c a b valid

theorem withinRange_iff (ro : ℕ) (v : ℤ) : withinRange ro v = true ↔ (v - 2048).natAbs ≤ ro := by
  rw [withinRange, Bool.and_eq_true, decide_eq_true_eq, decide_eq_true_eq, Config.offsetCentre]
  omega

theorem clampOffset_range (ro : ℕ) (v : ℤ) : (clampOffset ro v - 2048).natAbs ≤ ro := by
  have := clampI_range (lo := 2048 - ro) (hi := 2048 + ro) (by omega) v
  simp only [clampOffset, Config.offsetCentre]
  omega

theorem stepOffset_range {ro bt : ℕ} {off bucket : ℤ} (h : (off - 2048).natAbs ≤ ro) :
    ((stepOffset ro bt off bucket).1 - 2048).natAbs ≤ ro := by
  unfold stepOffset
  split
  · exact clampOffset_range _ _
  · split
    · exact clampOffset_range _ _
    · exact h

theorem steady_offsetStep (p : Part) (c : Channel) (ph : Phase) : Steady p (p.offsetStep c ph) := by
  unfold Part.offsetStep
  refine steady_modSense p c _ fun sound => ?_
  obtain ⟨a, b⟩ := sound
  unfold Part.offsetsAt
  rw [Part.modSense_sense, Six.get_set_same]
  cases ph with
  | a => exact ⟨stepOffset_range a, b⟩
  | b => exact ⟨a, stepOffset_range b⟩

/-- Two values within range taken as the offsets of a channel. -/
theorem steady_setOffsets (p : Part) (c : Channel) (f : Sense → Sense)
    (h : withinRange (p.ctx.get c).senseG.ro (f (p.sense.get c)).offA = true ∧
      withinRange (p.ctx.get c).senseG.ro (f (p.sense.get c)).offB = true) : Steady p (p.modSense c f) := by
  refine steady_modSense p c f fun _ => ?_
  unfold Part.offsetsAt
  rw [Part.modSense_sense, Six.get_set_same, ← withinRange_iff, ← withinRange_iff]
  exact h

theorem steady_recapture (p : Part) (c : Channel) (a b : Raw) : Steady p (p.recapture c a b) := by
  have counter : Steady p (p.modSense c (fun u => { u with excursion := 0 })) :=
    steady_modSense_counters p c _ fun _ => ⟨rfl, rfl⟩
  simp only [Part.recapture]
  split
  · next inRange =>
    refine (counter.trans (steady_setOffsets _ c _ ?_)).trans (steady_sendChannel ..)
    simpa using inRange
  · exact counter.trans (steady_raise ..)

theorem steady_captureEnd (p : Part) (c : Channel) : Steady p (p.captureEnd c) := by
  unfold Part.captureEnd
  split
  · next capture =>
    have sums : Steady p (p.modSense c (fun u => { u with sumA := 0, sumB := 0, count := 0 })) :=
      steady_modSense_counters p c _ fun _ => ⟨rfl, rfl⟩
    dsimp only
    split
    · next inRange =>
      have only := ((OnlyAt.modSense p c (fun u => { u with sumA := 0, sumB := 0, count := 0 })).trans
        (OnlyAt.modSense _ c (fun u => { u with offA := captureOffset (p.sense.get c).sumA,
                                                offB := captureOffset (p.sense.get c).sumB, bucketA := 0, bucketB := 0 }))).trans
        ((OnlyAt.modDrive _ c (fun d => { d with legs := ⟨⟨.low, .none⟩, ⟨.low, .none⟩, ⟨.low, .none⟩⟩ })).trans
          (OnlyAt.enter _ c .run))
      refine only.steady_of_bridgeOn (by rw [capture]; rfl) (by rw [Part.enter_stateOf]; rfl) ?_ ?_ ?_
      · simp [Part.causesOf]
      · rw [Part.enter_ctx, Six.get_set_same]; exact id
      · simpa [Part.offsetsAt, withinRange_iff] using fun _ _ => inRange
    · exact sums.trans (steady_raise ..)
  · exact Steady.refl p

/-! ### The current loop engine -/

theorem steady_startComputation (p : Part) (c : Channel) (i : Option (Int × Int)) : Steady p (p.startComputation c i) := by
  refine (OnlyAt.modCtx p c _).steady_of_state ?_ rfl ?_ ?_ ?_
  · simp [Part.stateOf]
  · intro off
    simp only [Part.offAt, Part.stateOf, Part.modCtx_ctx, Six.get_set_same, Part.modCtx_carrier]
    intro isOff
    obtain ⟨legs, onTimes, waiting, setpoint⟩ := off isOff
    exact ⟨legs, onTimes, waiting, fun inactive => by rw [setpoint inactive]; rfl⟩
  · rw [Part.modCtx_ctx, Six.get_set_same]; exact id
  · unfold Part.offsetsAt; rw [Part.modCtx_ctx, Six.get_set_same]; exact id

theorem steady_takeResult (p : Part) (c : Channel) (f : Flight) : Steady p (p.modCtx c (fun x => x.takeResult f)) := by
  refine (OnlyAt.modCtx p c _).steady_of_state ?_ rfl ?_ ?_ ?_
  · simp [Part.stateOf, Context.takeResult]
  · simp [Part.offAt, Part.stateOf, Context.takeResult]
  · rw [Part.modCtx_ctx, Six.get_set_same]
    rintro ⟨ipk, ipkCeil, icontCeil, ceilings, idMax, -⟩
    exact ⟨ipk, ipkCeil, icontCeil, ceilings, idMax, min_le_right _ _⟩
  · unfold Part.offsetsAt; rw [Part.modCtx_ctx, Six.get_set_same]; exact id

theorem steady_publish (p : Part) (c : Channel) (f : Flight) : Steady p (p.publish c f) := by
  unfold Part.publish
  dsimp only
  split
  · next on =>
    refine ((OnlyAt.modDrive ..).trans (OnlyAt.modCtx ..)).steady_of_bridgeOn (ChState.active_of_bridgeOn on) ?_ rfl ?_ ?_
    · simpa [Part.stateOf] using on
    · rw [Part.modCtx_ctx, Six.get_set_same]; exact id
    · unfold Part.offsetsAt; rw [Part.modCtx_ctx, Six.get_set_same]; exact id
  · refine (OnlyAt.modCtx ..).steady_of_state ?_ rfl ?_ ?_ ?_
    · simp [Part.stateOf]
    · simp [Part.offAt, Part.stateOf]
    · rw [Part.modCtx_ctx, Six.get_set_same]; exact id
    · unfold Part.offsetsAt; rw [Part.modCtx_ctx, Six.get_set_same]; exact id

theorem steady_decide (p : Part) (c : Channel) : Steady p (p.decide c).1 := by
  unfold Part.decide
  split
  · exact Steady.refl p
  · next f _ =>
    split
    · next on =>
      cases decision f with
      | stay => exact steady_publish p c f
      | returnToRun => exact (steady_enter_of_bridgeOn p c .run (ChState.active_of_bridgeOn on) rfl).trans (steady_publish _ c f)
      | enterHold | timeout => exact Steady.refl p
    · exact steady_publish p c f

theorem steady_complete (p : Part) (c : Channel) : Steady p (p.complete c).1 := by
  unfold Part.complete
  split
  · exact Steady.refl p
  · next f _ =>
    split
    · refine (steady_takeResult p c f).trans ?_
      dsimp only
      split
      · exact Steady.refl _
      · exact steady_decide _ c
    · exact steady_publish p c f

theorem steady_enterHold (p : Part) (c : Channel) : Steady p (p.enterHold c) := by
  unfold Part.enterHold
  split
  · next run =>
    refine ((OnlyAt.modCtx ..).trans (OnlyAt.enter ..)).steady_of_bridgeOn (by rw [run]; rfl)
      (by rw [Part.enter_stateOf]; rfl) ?_ ?_ ?_
    · simp [Part.causesOf]
    · rw [Part.enter_ctx, Six.get_set_same, Part.modCtx_ctx, Six.get_set_same]; exact id
    · simp [Part.offsetsAt]
  · exact Steady.refl p

/-! ### The bus budget unit -/

theorem steady_measureBus (p : Part) (raw : Raw) : Steady p (p.measureBus raw) := by
  have measured (b : Bus) (h : b.scale = p.bus.scale) : Steady p { p with bus := b } := Steady.bus p b (by rw [h]; exact id)
  unfold Part.measureBus
  dsimp only
  split
  · exact ((measured _ (by rfl)).trans (steady_raiseOn ..)).trans (Steady.bus _ _ (by exact id))
  · exact (measured _ (by rfl)).trans (Steady.bus _ _ (by exact id))

theorem scaleOf_le (g d : ℕ) : scaleOf g d ≤ 4096 := min_le_left _ _

theorem entryScale_le (b : Bus) (es : List Entry) (capEff : ℕ) (e : Entry) : entryScale b es capEff e ≤ 4096 := by
  unfold entryScale
  cases conditionOf b es capEff with
  | normal => exact le_rfl
  | motoringLimited =>
    dsimp only
    split
    · exact scaleOf_le _ _
    · exact le_rfl
  | regenLimited =>
    dsimp only
    split
    · exact scaleOf_le _ _
    · exact le_rfl

theorem Part.newScale_le (p : Part) (es : List Entry) (capEff : ℕ) (c : Channel) : p.newScale es capEff c ≤ 4096 := by
  unfold Part.newScale
  split
  · split
    · exact entryScale_le _ _ _ _
    · exact le_rfl
  · exact le_rfl

theorem steady_writeScale (p : Part) (c : Channel) (s : ℕ) (h : s ≤ 4096) : Steady p (p.writeScale c s) := by
  have written : Steady p { p with bus := { p.bus with scale := p.bus.scale.set c s } } := by
    refine Steady.bus p _ fun sound d => ?_
    rw [Six.get_set]
    split
    · exact h
    · exact sound d
  simp only [Part.writeScale]
  split
  · exact written.trans (steady_sendChannel ..)
  · split
    · exact written.trans (steady_sendChannel ..)
    · exact written

theorem steady_review (p : Part) : Steady p p.review.1 :=
  (Steady.forChannels (fun c q => q.writeScale c (p.newScale p.entries p.bus.capEff c))
    (fun c q => steady_writeScale q c _ (p.newScale_le _ _ c)) channels p).trans (Steady.bus _ _ id)

theorem steady_busOperation (p : Part) (raw : Raw) : Steady p (p.busOperation raw).1 := by
  simp only [Part.busOperation]
  split
  · exact steady_measureBus p raw
  · exact (steady_measureBus p raw).trans (steady_review _)

theorem steady_blockChopper (p : Part) : Steady p p.blockChopper := (Steady.bus p _ (by exact id)).trans (steady_send ..)

theorem steady_restoreChopper (p : Part) : Steady p p.restoreChopper := (Steady.bus p _ (by exact id)).trans (steady_send ..)

theorem steady_brkOnTimeEnd (p : Part) : Steady p p.brkOnTimeEnd := by
  unfold Part.brkOnTimeEnd
  split
  · exact Steady.bus p _ id
  · exact Steady.refl p

/-! ### The due steps -/

theorem steady_take (d : Due) (p : Part) : Steady p (d.take p).1 := by
  cases d with
  | busOperation n raw => exact steady_busOperation p raw
  | busUv cs => exact steady_raiseOn p _ cs
  | review => exact steady_review p
  | chopperBlocked => exact steady_blockChopper p
  | chopperRestored => exact steady_restoreChopper p
  | overcurrent c | sampleLoss c | setpointTimeout c => exact steady_raise p _ c
  | captureEnd c => exact steady_captureEnd p c
  | offsetStep c ph => exact steady_offsetStep p c ph
  | recapture c a b => exact steady_recapture p c a b
  | peakExhausted c => exact steady_sendChannel p _ c _
  | decide c => exact steady_decide p c
  | holdEntry c => exact steady_enterHold p c
  | publish c =>
    simp only [Due.take]
    split
    · exact steady_publish p c _
    · exact Steady.refl p

theorem steady_settle (p : Part) (ds : List Due) : Steady p (p.settle ds) :=
  settleFor_keeps (Steady p) (fun d _ hq => hq.trans (steady_take d _)) _ p ds (Steady.refl p)

/-! ### The carrier unit -/

theorem steady_frameMarkStep (p : Part) : Steady p { p with carrier := p.carrier.frameMarkStep } := by
  refine Steady.carrier p _ rfl ?_
  rintro ⟨⟨period, pendingP⟩, ⟨blank, divLow, divHigh, count⟩, table, pendingTable⟩
  refine ⟨⟨?_, fun n e => nomatch e⟩, ⟨blank, divLow, divHigh, ?_⟩, ?_, fun t e => nomatch e⟩
  · simp only [Carrier.frameMarkStep]
    cases e : p.carrier.pendingP with
    | none => exact period
    | some n => exact pendingP n e
  · simp only [Carrier.frameMarkStep]
    split <;> omega
  · simp only [Carrier.frameMarkStep]
    cases e : p.carrier.pendingTable with
    | none => exact table
    | some t => exact pendingTable t e

theorem steady_frameMarkOp (p : Part) (raw : Raw) (before : ℕ) : Steady p (p.frameMarkOp raw before).1 := by
  unfold Part.frameMarkOp
  split
  · exact Steady.refl p
  · dsimp only
    split
    · exact (steady_frameMarkStep p).trans (steady_busOperation _ raw)
    · exact steady_frameMarkStep p

/-- A drive changed so that one at rest stays at rest outside RUN and HOLD. -/
theorem steady_modDrive (p : Part) (c : Channel) (f : Drive → Drive) (h : p.offAt c → (p.modDrive c f).offAt c) :
    Steady p (p.modDrive c f) :=
  (OnlyAt.modDrive p c f).steady_of_state rfl rfl h id id

theorem steady_legEdge (p : Part) (c : Channel) (leg : Leg) : Steady p (p.legEdge c leg) := by
  unfold Part.legEdge
  split
  · next on =>
    refine steady_modDrive p c _ fun _ off => ?_
    simp [Part.stateOf] at off on
    rw [off] at on; cases on
  · exact Steady.refl p

theorem steady_loadOnTimes (p : Part) (c : Channel) : Steady p (p.loadOnTimes c) := by
  refine steady_modDrive p c _ fun sound off => ?_
  obtain ⟨legs, onTimes, waiting, setpoint⟩ := sound off
  have isOff : (p.stateOf c).bridgeOn = false := off
  simp [isOff, legs, onTimes, waiting]
  exact setpoint

theorem steady_recordVerdict (p : Part) (c : Channel) (valid : Bool) : Steady p (p.recordVerdict c valid) := by
  have verdict : Steady p (p.modDrive c (fun d => { d with valid := valid })) := by
    refine steady_modDrive p c _ fun sound => ?_
    simpa [Part.offAt, Part.stateOf] using sound
  simp only [Part.recordVerdict]
  split
  · exact verdict
  · exact verdict.trans (steady_sendChannel ..)

theorem steady_syncEnd (p : Part) (c : Channel) : Steady p (p.syncEnd c) := by
  unfold Part.syncEnd
  split
  · exact Steady.carrier p _ rfl id
  · exact Steady.refl p

theorem steady_startAfter (p : Part) (c : Channel) (i : Option (Int × Int)) (o : ValleyOrder) (ds : List Due) :
    Steady p (p.startAfter c i o ds) := by
  unfold Part.startAfter
  split
  · exact steady_startComputation p c i
  · exact Steady.refl p

theorem steady_completeBefore (p : Part) (c : Channel) : Steady p (p.completeBefore c) :=
  (steady_complete p c).trans (steady_settle ..)

theorem steady_valleyOp (p : Part) (c : Channel) (a b : Raw) (o : ValleyOrder) : Steady p (p.valleyOp c a b o).1 := by
  unfold Part.valleyOp
  split
  · exact Steady.refl p
  · exact (((steady_completeBefore p c).trans (steady_syncEnd ..)).trans (steady_loadOnTimes ..)).trans
      (((steady_recordVerdict ..).trans (steady_senseSample ..)).trans (steady_startAfter ..))

end Sys2Proof.Machine

/-! SUPPORT. The slot maps (8.1): the entries place by place, what a sound binding says of them, and the entry and the partner of a
channel. -/

namespace Sys2Proof.Machine

/-! ### Entries place by place -/

/-- The entry of a link slot of a motion link. -/
def Part.entryAt (p : Part) (m : Motion) (k : LinkSlot) : Option SlotEntry := (p.binding.maps.get m).get k

/-- The eight link slots of the part. -/
def places : List (Motion × LinkSlot) := linkSlots.map (fun k => (.a, k)) ++ linkSlots.map (fun k => (.b, k))

theorem mem_places (x : Motion × LinkSlot) : x ∈ places := by
  obtain ⟨m, k⟩ := x
  cases m <;> fin_cases k <;> decide

theorem nodup_places : places.Nodup := by decide

/-- The channels of a link slot, none when it is unbound. -/
def slotChans (o : Option SlotEntry) : List Channel := (o.map SlotEntry.chans).getD []

@[simp] theorem slotChans_none : slotChans none = [] := rfl
@[simp] theorem slotChans_some (e : SlotEntry) : slotChans (some e) = e.chans := rfl

theorem mem_slotChans {o : Option SlotEntry} {c : Channel} : c ∈ slotChans o ↔ ∃ e, o = some e ∧ c ∈ e.chans := by
  cases o <;> simp

theorem Part.mapChannels_eq (p : Part) (m : Motion) : p.mapChannels m = linkSlots.flatMap (fun k => slotChans (p.entryAt m k)) := rfl

theorem Part.mapChannels_both (p : Part) :
    p.mapChannels .a ++ p.mapChannels .b = places.flatMap (fun x => slotChans (p.entryAt x.1 x.2)) := by
  simp [places, Part.mapChannels_eq, List.flatMap_map]

/-- Link slot `k` of link `m` is bound to the entry `e`, which names the channel `c`. -/
def Part.boundAt (p : Part) (m : Motion) (k : LinkSlot) (e : SlotEntry) (c : Channel) : Prop :=
  p.entryAt m k = some e ∧ c ∈ e.chans

theorem Part.mem_mapChannels {p : Part} {m : Motion} {c : Channel} : c ∈ p.mapChannels m ↔ ∃ k e, p.boundAt m k e c := by
  have every : ∀ k : LinkSlot, k ∈ linkSlots := by decide
  simp only [Part.mapChannels_eq, List.mem_flatMap, mem_slotChans, Part.boundAt]
  exact ⟨fun ⟨k, _, h⟩ => ⟨k, h⟩, fun ⟨k, h⟩ => ⟨k, every k, h⟩⟩

theorem Part.mem_mapChannels_both {p : Part} {c : Channel} :
    c ∈ p.mapChannels .a ++ p.mapChannels .b ↔ ∃ m k e, p.boundAt m k e c := by
  rw [List.mem_append, Part.mem_mapChannels, Part.mem_mapChannels]
  constructor
  · rintro (h | h)
    · exact ⟨.a, h⟩
    · exact ⟨.b, h⟩
  · rintro ⟨m, h⟩
    cases m with
    | a => exact Or.inl h
    | b => exact Or.inr h

/-! ### A sound binding, place by place -/

/-- What a sound binding says of the entries. -/
structure Part.EntriesSound (p : Part) : Prop where
  once : ∀ {m k e}, p.entryAt m k = some e → e.chans.Nodup
  unique : ∀ {m k e m' k' e' c}, p.boundAt m k e c → p.boundAt m' k' e' c → m = m' ∧ k = k'
  holder : ∀ {m k e c}, p.boundAt m k e c → p.binding.holders.get c = some m
  mapped : ∀ c, (p.stateOf c).active = true → ∃ m k e, p.boundAt m k e c

theorem Part.nodup_mapChannels (p : Part) :
    (p.mapChannels .a ++ p.mapChannels .b).Nodup ↔
      (∀ m k e, p.entryAt m k = some e → e.chans.Nodup) ∧
        ∀ m k e m' k' e' c, p.boundAt m k e c → p.boundAt m' k' e' c → m = m' ∧ k = k' := by
  rw [Part.mapChannels_both, List.nodup_flatMap]
  refine and_congr ⟨fun h m k e bound => ?_, fun h x _ => ?_⟩ ⟨fun h m k e m' k' e' c b b' => ?_, fun h => ?_⟩
  · have := h (m, k) (mem_places _)
    rwa [bound] at this
  · obtain ⟨m, k⟩ := x
    cases e : p.entryAt m k with
    | none => exact List.nodup_nil
    | some s => exact h m k s e
  · by_contra apart
    have differ : (m, k) ≠ (m', k') := fun e => apart (Prod.mk.inj e)
    have symm : Std.Symm (Function.onFun List.Disjoint fun x : Motion × LinkSlot => slotChans (p.entryAt x.1 x.2)) :=
      ⟨fun _ _ disjoint => disjoint.symm⟩
    have disjoint := h.forall (mem_places (m, k)) (mem_places (m', k')) differ
    exact disjoint (mem_slotChans.mpr ⟨e, b⟩) (mem_slotChans.mpr ⟨e', b'⟩)
  · refine nodup_places.imp ?_
    intro x y differ c hx hy
    obtain ⟨e, b⟩ := mem_slotChans.mp hx
    obtain ⟨e', b'⟩ := mem_slotChans.mp hy
    obtain ⟨sameLink, sameSlot⟩ := h x.1 x.2 e y.1 y.2 e' c b b'
    exact differ (Prod.ext sameLink sameSlot)

theorem Part.bindingSound_iff (p : Part) : p.bindingSound ↔ p.EntriesSound := by
  unfold Part.bindingSound
  rw [Part.nodup_mapChannels]
  constructor
  · rintro ⟨⟨once, unique⟩, holder, mapped⟩
    exact ⟨once _ _ _, unique _ _ _ _ _ _ _, fun b => holder _ _ (Part.mem_mapChannels.mpr ⟨_, _, b⟩),
      fun c active => Part.mem_mapChannels_both.mp (mapped c active)⟩
  · intro sound
    refine ⟨⟨fun _ _ _ => sound.once, fun _ _ _ _ _ _ _ => sound.unique⟩, fun m c named => ?_, fun c active => ?_⟩
    · obtain ⟨_, _, b⟩ := Part.mem_mapChannels.mp named
      exact sound.holder b
    · exact Part.mem_mapChannels_both.mpr (sound.mapped c active)

/-! ### The entry of a channel -/

theorem SlotEntry.names_iff {e : SlotEntry} {c : Channel} : e.names c = true ↔ c ∈ e.chans := by
  simp [SlotEntry.names]

theorem Part.entryOf_eq (p : Part) (c : Channel) :
    p.entryOf c = places.findSome? (fun x => match p.entryAt x.1 x.2 with
      | some e => if e.names c then some (x.1, x.2, e) else none
      | none => none) := rfl

theorem Part.boundAt_of_entryOf {p : Part} {c : Channel} {m : Motion} {k : LinkSlot} {e : SlotEntry}
    (h : p.entryOf c = some (m, k, e)) : p.boundAt m k e c := by
  rw [Part.entryOf_eq] at h
  obtain ⟨x, -, found⟩ := List.exists_of_findSome?_eq_some h
  split at found
  · next s bound =>
    split at found
    · next names =>
      cases found
      exact ⟨bound, SlotEntry.names_iff.mp names⟩
    · cases found
  · cases found

theorem Part.entryOf_eq_none_iff {p : Part} {c : Channel} : p.entryOf c = none ↔ ∀ m k e, ¬p.boundAt m k e c := by
  rw [Part.entryOf_eq, List.findSome?_eq_none_iff]
  constructor
  · rintro h m k e ⟨bound, named⟩
    have none := h (m, k) (mem_places _)
    simp [bound, SlotEntry.names_iff.mpr named] at none
  · intro h x _
    split
    · next e bound => exact if_neg fun names => h x.1 x.2 e ⟨bound, SlotEntry.names_iff.mp names⟩
    · rfl

theorem Part.mapped_iff {p : Part} {c : Channel} : p.mapped c = true ↔ c ∈ p.mapChannels .a ++ p.mapChannels .b := by
  rw [Part.mem_mapChannels_both, Part.mapped, Option.isSome_iff_ne_none, Ne, Part.entryOf_eq_none_iff]
  push Not
  rfl

/-- With a sound binding the entry of a channel is the one that names it. -/
theorem Part.entryOf_of_boundAt {p : Part} (sound : p.EntriesSound) {c : Channel} {m : Motion} {k : LinkSlot} {e : SlotEntry}
    (b : p.boundAt m k e c) : p.entryOf c = some (m, k, e) := by
  cases h : p.entryOf c with
  | none => exact absurd b (Part.entryOf_eq_none_iff.mp h m k e)
  | some x =>
    obtain ⟨m', k', e'⟩ := x
    have b' := Part.boundAt_of_entryOf h
    obtain ⟨rfl, rfl⟩ := sound.unique b' b
    rw [Option.some.inj (b'.1.symm.trans b.1)]

/-! ### The members of an entry and the partner of a channel -/

@[simp] theorem SlotEntry.chans_single (x : Member) : SlotEntry.chans ⟨x, none⟩ = [x.ch] := rfl
@[simp] theorem SlotEntry.chans_pair (x y : Member) : SlotEntry.chans ⟨x, some y⟩ = [x.ch, y.ch] := rfl

theorem Part.partnerOf_of_single {p : Part} (sound : p.EntriesSound) {m : Motion} {k : LinkSlot} {x : Member}
    (bound : p.entryAt m k = some ⟨x, none⟩) : p.partnerOf x.ch = none := by
  have b : p.boundAt m k ⟨x, none⟩ x.ch := ⟨bound, by simp⟩
  simp only [Part.partnerOf, Part.entryOf_of_boundAt sound b]

theorem Part.partnerOf_first {p : Part} (sound : p.EntriesSound) {m : Motion} {k : LinkSlot} {x y : Member}
    (bound : p.entryAt m k = some ⟨x, some y⟩) : p.partnerOf x.ch = some y.ch := by
  have b : p.boundAt m k ⟨x, some y⟩ x.ch := ⟨bound, by simp⟩
  simp only [Part.partnerOf, Part.entryOf_of_boundAt sound b, if_true]

theorem Part.EntriesSound.members_ne {p : Part} (sound : p.EntriesSound) {m : Motion} {k : LinkSlot} {x y : Member}
    (bound : p.entryAt m k = some ⟨x, some y⟩) : x.ch ≠ y.ch := by
  simpa using sound.once bound

theorem Part.partnerOf_second {p : Part} (sound : p.EntriesSound) {m : Motion} {k : LinkSlot} {x y : Member}
    (bound : p.entryAt m k = some ⟨x, some y⟩) : p.partnerOf y.ch = some x.ch := by
  have b : p.boundAt m k ⟨x, some y⟩ y.ch := ⟨bound, by simp⟩
  simp only [Part.partnerOf, Part.entryOf_of_boundAt sound b, if_neg (sound.members_ne bound)]

/-- The partner of a channel, when there is one, is the other member of a two-member slot. -/
theorem Part.pair_of_partnerOf {p : Part} {c d : Channel} (h : p.partnerOf c = some d) :
    ∃ m k x y, p.entryAt m k = some ⟨x, some y⟩ ∧ (x.ch = c ∧ y.ch = d ∨ y.ch = c ∧ x.ch = d) := by
  unfold Part.partnerOf at h
  split at h
  · next m k e found =>
    obtain ⟨bound, named⟩ := Part.boundAt_of_entryOf found
    obtain ⟨x, second⟩ := e
    cases second with
    | none => cases h
    | some y =>
      refine ⟨m, k, x, y, bound, ?_⟩
      simp only [SlotEntry.chans_pair, List.mem_cons, List.not_mem_nil, or_false] at named
      dsimp only at h
      split at h
      · next first => exact Or.inl ⟨first, Option.some.inj h⟩
      · next other => exact Or.inr ⟨(named.resolve_left (Ne.symm other)).symm, Option.some.inj h⟩
  · cases h

/-- A channel that no two-member slot names has no partner. -/
theorem Part.partnerOf_eq_none {p : Part} {c : Channel}
    (h : ∀ m k x y, p.entryAt m k = some ⟨x, some y⟩ → x.ch ≠ c ∧ y.ch ≠ c) : p.partnerOf c = none := by
  cases e : p.partnerOf c with
  | none => rfl
  | some d =>
    obtain ⟨m, k, x, y, bound, ⟨first, -⟩ | ⟨second, -⟩⟩ := Part.pair_of_partnerOf e
    · exact absurd first (h m k x y bound).1
    · exact absurd second (h m k x y bound).2

/-! ### A link slot changed -/

theorem Part.setSlot_entryAt (p : Part) (m n : Motion) (k j : LinkSlot) (e : Option SlotEntry) :
    (p.setSlot m k e).entryAt n j = if m = n ∧ k = j then e else p.entryAt n j := by
  unfold Part.setSlot Part.entryAt
  dsimp only
  by_cases link : m = n
  · subst link
    rw [Two.get_set_same]
    by_cases slot : k = j
    · subst slot; rw [Four.get_set_same, if_pos ⟨rfl, rfl⟩]
    · rw [Four.get_set_ne _ _ slot, if_neg fun h => slot h.2]
  · rw [Two.get_set_ne _ _ link, if_neg fun h => link h.1]

theorem Part.setSlot_none_boundAt {p : Part} {m n : Motion} {k j : LinkSlot} {e : SlotEntry} {c : Channel} :
    (p.setSlot m k none).boundAt n j e c ↔ ¬(m = n ∧ k = j) ∧ p.boundAt n j e c := by
  unfold Part.boundAt
  rw [Part.setSlot_entryAt]
  split <;> simp [*]

end Sys2Proof.Machine

/-! SUPPORT. Several channels changed at once, the channels of a mask byte, and the torque input logic: the flags and the states that
WITHDRAW, RESTORE, EDGE_CLEAR and a fall of TEN leave. -/

namespace Sys2Proof.Machine

/-! ### Several channels -/

/-- The induction over the channels of a list, when the operation needs to know that its channel is one of them. -/
theorem Part.forChannels_keeps_mem (I : Part → Prop) (f : Channel → Part → Part) (cs : List Channel) (p : Part)
    (h : ∀ c ∈ cs, ∀ q, I q → I (f c q)) (hp : I p) : I (p.forChannels cs f) := by
  induction cs generalizing p with
  | nil => exact hp
  | cons c cs ih => exact ih _ (fun d hd => h d (List.mem_cons_of_mem _ hd)) (h c List.mem_cons_self p hp)

@[simp] theorem Part.forChannels_nil (p : Part) (f : Channel → Part → Part) : p.forChannels [] f = p := rfl

@[simp] theorem Part.forChannels_cons (p : Part) (c : Channel) (cs : List Channel) (f : Channel → Part → Part) :
    p.forChannels (c :: cs) f = (f c p).forChannels cs f := rfl

@[simp] theorem changedAt_get {α : Type} (v : Six α) (cs : List Channel) (f : Channel → α → α) (c : Channel) :
    (changedAt v cs f).get c = if c ∈ cs then f c (v.get c) else v.get c := by
  simp [changedAt]

/-- An item set to the same value for each channel of a list, which may name a channel twice. -/
theorem foldl_set_idem {α : Type} (f : Channel → α → α) (idem : ∀ c x, f c (f c x) = f c x) (cs : List Channel) (v : Six α) :
    cs.foldl (fun v c => v.set c (f c (v.get c))) v = changedAt v cs f := by
  induction cs generalizing v with
  | nil => exact Six.ext_get fun c => by simp
  | cons d cs ih =>
    rw [List.foldl_cons, ih]
    refine Six.ext_get fun c => ?_
    rw [changedAt_get, changedAt_get, Six.get_set]
    by_cases e : d = c
    · subst e
      simp [idem]
    · have e' : ¬c = d := fun h => e h.symm
      simp [e, e']

/-- The contexts of several channels changed. -/
theorem Part.forChannels_modCtx (f : Channel → Context → Context) (cs : List Channel) (p : Part) :
    p.forChannels cs (fun c q => q.modCtx c (f c)) =
      { p with ctx := cs.foldl (fun v c => v.set c (f c (v.get c))) p.ctx } := by
  induction cs generalizing p with
  | nil => rfl
  | cons c cs ih => rw [Part.forChannels_cons, ih]; rfl

/-! ### Masks -/

theorem maskOf_of_lt {b : Byte} (h : b.toNat < 64) : maskOf b = some (namedChannels b) := if_pos h

theorem onlyMask_eq_some {payload : List Byte} {cs : List Channel} (h : onlyMask payload = some cs) :
    ∃ b, payload = [b] ∧ b.toNat < 64 ∧ cs = namedChannels b := by
  unfold onlyMask at h
  split at h
  · next b =>
    unfold maskOf at h
    split at h
    · next small => exact ⟨b, rfl, small, (Option.some.inj h).symm⟩
    · cases h
  · cases h

theorem onlyMask_single {b : Byte} (h : b.toNat < 64) : onlyMask [b] = some (namedChannels b) := maskOf_of_lt h

theorem nodup_channels : channels.Nodup := by decide

theorem mem_namedChannels {b : Byte} {c : Channel} : c ∈ namedChannels b ↔ named b c = true := by
  simp [namedChannels, mem_channels]

theorem namedChannels_length_le (b : Byte) : (namedChannels b).length ≤ 6 := List.length_filter_le _ _

theorem SlotEntry.ascending_eq (e : SlotEntry) : e.ascending = channels.filter (fun c => c ∈ e.chans) := by
  simp [SlotEntry.ascending, SlotEntry.names]

theorem SlotEntry.mem_ascending {e : SlotEntry} {c : Channel} : c ∈ e.ascending ↔ c ∈ e.chans := by
  simp [SlotEntry.ascending_eq, mem_channels]

theorem SlotEntry.ascending_length_le (e : SlotEntry) : e.ascending.length ≤ 6 := List.length_filter_le _ _

/-! ### Entry to SAFE_OFF -/

theorem Part.safeOff_stateOf (p : Part) (c d : Channel) :
    (p.safeOff c).stateOf d = if c = d then .safeOff else p.stateOf d := by
  by_cases e : c = d
  · subst e
    rw [if_pos rfl]
    unfold Part.safeOff
    split
    · next already => exact already
    · simp [Part.stateOf, Part.intoSafeOff]
  · rw [if_neg e]; exact (OnlyAt.safeOff p c).stateOf e

@[simp] theorem Part.safeOff_faults (p : Part) (c : Channel) : (p.safeOff c).faults = p.faults := by
  unfold Part.safeOff Part.intoSafeOff; split <;> simp

@[simp] theorem Part.safeOff_torque (p : Part) (c : Channel) : (p.safeOff c).torque = p.torque :=
  (OnlyAt.safeOff p c).torque

theorem keeps_safeOff (p : Part) (c : Channel) : Keeps p (p.safeOff c) := by
  have only := OnlyAt.safeOff p c
  have state : (p.safeOff c).stateOf c = .safeOff := by rw [Part.safeOff_stateOf, if_pos rfl]
  refine only.keeps ?_ ?_ ?_ ?_ ?_
  · rw [state]; exact fun h => nomatch h
  · intro off
    unfold Part.safeOff
    split
    · exact off
    · intro _
      obtain ⟨legs, onTimes, waiting, -⟩ := Part.leaveActive_off off
      simp [Part.intoSafeOff, legs, onTimes, waiting]
  · unfold Part.safeOff
    split
    · exact id
    · intro limits
      simp only [Part.intoSafeOff, Part.sendChannel_ctx, Part.modCtx_ctx, Six.get_set_same]
      exact (p.leaveActive_groups c).2.mpr limits
  · unfold Part.safeOff
    split
    · exact id
    · simp [Part.offsetsAt, Part.intoSafeOff, p.leaveActive_offsets c, p.leaveActive_groups c]
  · rintro -
    exact ⟨fun h => absurd (state ▸ h) (by decide), fun _ => Or.inr state⟩

/-- Several channels into SAFE_OFF: their states, and what stays. -/
theorem Part.forChannels_safeOff (cs : List Channel) (p : Part) :
    (∀ d, (p.forChannels cs (fun c q => q.safeOff c)).stateOf d = if d ∈ cs then .safeOff else p.stateOf d) ∧
      (p.forChannels cs (fun c q => q.safeOff c)).faults = p.faults ∧
      (p.forChannels cs (fun c q => q.safeOff c)).torque = p.torque := by
  induction cs generalizing p with
  | nil => exact ⟨fun d => by simp, rfl, rfl⟩
  | cons c cs ih =>
    obtain ⟨state, faults, torque⟩ := ih (p.safeOff c)
    refine ⟨fun d => ?_, faults.trans (p.safeOff_faults c), torque.trans (p.safeOff_torque c)⟩
    rw [Part.forChannels_cons, state, Part.safeOff_stateOf]
    by_cases here : d ∈ cs
    · simp [here]
    · by_cases e : c = d
      · simp [e]
      · have e' : ¬d = c := fun h => e h.symm
        simp [here, e, e']

/-! ### Exit from SAFE_OFF -/

/-- The channel leaves SAFE_OFF when it is judged for exit (R117). -/
def Part.mayExit (p : Part) (c : Channel) : Prop :=
  p.torque.ten = true ∧ p.torque.drop = false ∧ p.torque.withdrawn.get c = false

theorem Part.judgeExit_of_exit {p : Part} {c : Channel} (state : p.stateOf c = .safeOff) (exit : p.mayExit c) :
    p.judgeExit c = p.enter c (if (p.causesOf c).isEmpty then .off else .fault) := by
  obtain ⟨ten, drop, withdrawn⟩ := exit
  simp [Part.judgeExit, state, ten, drop, withdrawn]

theorem Part.judgeExit_of_stay {p : Part} {c : Channel} (stay : ¬(p.stateOf c = .safeOff ∧ p.mayExit c)) : p.judgeExit c = p := by
  refine if_neg fun h => stay ?_
  simpa [Part.mayExit, and_assoc] using h

theorem OnlyAt.judgeExit (p : Part) (c : Channel) : OnlyAt c p (p.judgeExit c) := by
  unfold Part.judgeExit
  split
  · exact OnlyAt.enter ..
  · exact OnlyAt.refl c p

@[simp] theorem Part.judgeExit_torque (p : Part) (c : Channel) : (p.judgeExit c).torque = p.torque := (OnlyAt.judgeExit p c).torque

theorem CauseSet.isEmpty_iff {x : CauseSet} : x.isEmpty = true ↔ x = .empty := by simp [CauseSet.isEmpty]

theorem keeps_judgeExit (p : Part) (c : Channel) : Keeps p (p.judgeExit c) := by
  by_cases exits : p.stateOf c = .safeOff ∧ p.mayExit c
  · obtain ⟨state, exit⟩ := exits
    have only := OnlyAt.judgeExit p c
    rw [Part.judgeExit_of_exit state exit] at only ⊢
    set st : ChState := if (p.causesOf c).isEmpty then .off else .fault with hst
    have inactive : st.active = false := by rw [hst]; split <;> rfl
    refine only.keeps ?_ ?_ ?_ ?_ ?_
    · rw [Part.enter_stateOf, inactive]; exact fun h => nomatch h
    · intro off _
      obtain ⟨legs, onTimes, waiting, setpoint⟩ := off (by rw [state]; rfl)
      rw [Part.enter_carrier, Part.enter_ctx, Six.get_set_same]
      exact ⟨legs, onTimes, waiting, fun _ => setpoint (by rw [state]; rfl)⟩
    · rw [Part.enter_ctx, Six.get_set_same]; exact id
    · unfold Part.offsetsAt; rw [Part.enter_ctx, Six.get_set_same, Part.enter_sense]; exact id
    · rintro -
      have causes : (p.enter c st).causesOf c = p.causesOf c := by simp [Part.causesOf]
      rw [Part.causesAt, Part.enter_stateOf, causes, hst]
      by_cases none : p.causesOf c = .empty
      · rw [if_pos (CauseSet.isEmpty_iff.mpr none)]
        exact ⟨fun h => (nomatch h), fun h => absurd none h⟩
      · rw [if_neg fun h => none (CauseSet.isEmpty_iff.mp h)]
        exact ⟨fun _ => none, fun _ => Or.inl rfl⟩
  · rw [Part.judgeExit_of_stay exits]; exact Keeps.refl p

theorem Part.judgeExit_safeOff_iff (p : Part) (c d : Channel) :
    (p.judgeExit c).stateOf d = .safeOff ↔ p.stateOf d = .safeOff ∧ ¬(c = d ∧ p.mayExit d) := by
  by_cases e : c = d
  · subst e
    by_cases exits : p.stateOf c = .safeOff ∧ p.mayExit c
    · rw [Part.judgeExit_of_exit exits.1 exits.2, Part.enter_stateOf]
      split <;> simp [exits]
    · rw [Part.judgeExit_of_stay exits]
      simp only [true_and]
      exact ⟨fun h => ⟨h, fun exit => exits ⟨h, exit⟩⟩, fun h => h.1⟩
  · rw [(OnlyAt.judgeExit p c).stateOf e]
    simp [e]

/-- Several channels judged for exit: which stay in SAFE_OFF. -/
theorem Part.forChannels_judgeExit (cs : List Channel) (p : Part) :
    (∀ d, (p.forChannels cs (fun c q => q.judgeExit c)).stateOf d = .safeOff ↔
      p.stateOf d = .safeOff ∧ ¬(d ∈ cs ∧ p.mayExit d)) ∧
      (p.forChannels cs (fun c q => q.judgeExit c)).torque = p.torque := by
  induction cs generalizing p with
  | nil => exact ⟨fun d => by simp, rfl⟩
  | cons c cs ih =>
    obtain ⟨state, torque⟩ := ih (p.judgeExit c)
    refine ⟨fun d => ?_, torque.trans (p.judgeExit_torque c)⟩
    have may : (p.judgeExit c).mayExit d ↔ p.mayExit d := by unfold Part.mayExit; rw [Part.judgeExit_torque]
    rw [Part.forChannels_cons, state, Part.judgeExit_safeOff_iff, may, List.mem_cons, eq_comm (a := d)]
    tauto

/-! ### The withdrawn flags -/

theorem Part.setWithdrawn_eq (p : Part) (cs : List Channel) (v : Bool) :
    p.setWithdrawn cs v =
      { p with torque := { p.torque with withdrawn := changedAt p.torque.withdrawn cs (fun _ _ => v) } } := by
  rw [← foldl_set_idem (fun _ _ => v) (fun _ _ => rfl)]
  unfold Part.setWithdrawn
  induction cs generalizing p with
  | nil => rfl
  | cons c cs ih => rw [Part.forChannels_cons, ih]; rfl

/-! ### The requests and the line -/

theorem keeps_withdrawChannels (p : Part) (cs : List Channel) : Keeps p (p.withdrawChannels cs) := by
  unfold Part.withdrawChannels
  rw [Part.setWithdrawn_eq]
  have named := (Keeps.torqueUnit p { p.torque with withdrawn := changedAt p.torque.withdrawn cs (fun _ _ => true) }).trans
    (Keeps.forChannels (fun c q => q.safeOff c) (fun c q => keeps_safeOff q c) cs _)
  refine named.trans ?_
  exact Keeps.forChannels (fun c q => q.partnerRule c) (fun c q => (steady_partnerRule q c).toKeeps) _ _

theorem steady_withdrawChannels (p : Part) (cs : List Channel) : Steady p (p.withdrawChannels cs) where
  toKeeps := keeps_withdrawChannels p cs
  torque := by
    rintro ⟨ten, flags⟩
    unfold Part.withdrawChannels
    refine (Steady.forChannels (fun c q => q.partnerRule c) (fun c q => steady_partnerRule q c) _ _).torque ?_
    rw [Part.setWithdrawn_eq]
    obtain ⟨state, -, torque⟩ := Part.forChannels_safeOff cs
      { p with torque := { p.torque with withdrawn := changedAt p.torque.withdrawn cs (fun _ _ => true) } }
    unfold Part.torqueSound
    rw [torque]
    refine ⟨ten, fun d => ?_⟩
    rw [state]
    dsimp only
    rw [changedAt_get]
    by_cases here : d ∈ cs
    · simp [here]
    · simpa [here, Part.stateOf] using flags d

theorem steady_restoreChannels (p : Part) (cs : List Channel) : Steady p (p.restoreChannels cs) where
  toKeeps := by
    unfold Part.restoreChannels
    rw [Part.setWithdrawn_eq]
    exact (Keeps.torqueUnit p _).trans (Keeps.forChannels (fun c q => q.judgeExit c) (fun c q => keeps_judgeExit q c) cs _)
  torque := by
    rintro ⟨ten, flags⟩
    unfold Part.restoreChannels
    rw [Part.setWithdrawn_eq]
    obtain ⟨state, torque⟩ := Part.forChannels_judgeExit cs
      { p with torque := { p.torque with withdrawn := changedAt p.torque.withdrawn cs (fun _ _ => false) } }
    unfold Part.torqueSound
    rw [torque]
    refine ⟨ten, fun d => ?_⟩
    have before := flags d
    rw [state]
    simp only [Part.stateOf, Part.mayExit, changedAt_get] at before ⊢
    rw [before]
    cases drop : p.torque.drop with
    | true => simp
    | false =>
      have tenHigh : p.torque.ten = true := by
        by_contra low
        rw [ten (by simpa using low)] at drop; cases drop
      by_cases here : d ∈ cs <;> simp [here, tenHigh]

theorem steady_clearEdge (p : Part) (high : p.torque.ten = true) : Steady p p.clearEdge where
  toKeeps := (Keeps.torqueUnit p _).trans (Keeps.forChannels (fun c q => q.judgeExit c) (fun c q => keeps_judgeExit q c) channels _)
  torque := by
    rintro ⟨-, flags⟩
    obtain ⟨state, torque⟩ := Part.forChannels_judgeExit channels (p.modTorque (fun t => { t with drop := false }))
    unfold Part.clearEdge Part.torqueSound
    rw [torque]
    refine ⟨fun low => ?_, fun d => ?_⟩
    · rw [Part.modTorque_torque] at low
      rw [high] at low; cases low
    · have before := flags d
      rw [state]
      simp only [Part.stateOf, Part.mayExit, Part.modTorque_torque, Part.modTorque_ctx] at before ⊢
      rw [before]
      simp only [mem_channels, high, true_and, Bool.false_eq_true, false_or]
      cases p.torque.withdrawn.get d <;> simp

theorem steady_tenFall (p : Part) : Steady p p.tenFall := by
  unfold Part.tenFall
  split
  · exact Steady.refl p
  · have sent : Keeps p ((p.modTorque (fun t => { t with ten := false, drop := true })).sendTorqueDrop) :=
      (Keeps.torqueUnit p _).trans (((steady_send ..).trans (steady_send ..)).trans (steady_send ..)).toKeeps
    refine ⟨sent.trans (Keeps.forChannels (fun c q => q.safeOff c) (fun c q => keeps_safeOff q c) channels _), fun _ => ?_⟩
    obtain ⟨state, -, torque⟩ := Part.forChannels_safeOff channels
      ((p.modTorque (fun t => { t with ten := false, drop := true })).sendTorqueDrop)
    unfold Part.torqueSound
    rw [torque]
    refine ⟨fun _ => rfl, fun d => ?_⟩
    rw [state]
    simp [mem_channels, Part.sendTorqueDrop]

theorem steady_tenRise (p : Part) : Steady p p.tenRise := by
  unfold Part.tenRise
  split
  · exact Steady.refl p
  · exact ⟨Keeps.torqueUnit p _, fun sound => ⟨fun low => (nomatch low), sound.2⟩⟩

theorem steady_setBflt (p : Part) (c : Channel) (v : Bool) : Steady p (p.setBflt c v) := ⟨Keeps.torqueUnit p _, id⟩

theorem steady_bfltActive (p : Part) (c : Channel) : Steady p (p.bfltActive c) := by
  unfold Part.bfltActive
  split
  · exact Steady.refl p
  · exact (steady_setBflt ..).trans (steady_raise ..)

theorem steady_bfltInactive (p : Part) (c : Channel) : Steady p (p.bfltInactive c) := by
  unfold Part.bfltInactive
  split
  · exact Steady.refl p
  · exact steady_setBflt ..

/-! ### The end of a reset -/

/-- The start states of R2. -/
theorem Part.startStates_eq (p : Part) (tenHigh : Bool) :
    p.startStates tenHigh = { p with
      ctx := if tenHigh then p.ctx else .ofFn (fun c => { p.ctx.get c with state := .safeOff })
      torque := if tenHigh then { p.torque with ten := true } else { p.torque with ten := false, drop := true } } := by
  cases tenHigh with
  | true => rfl
  | false =>
    unfold Part.startStates
    rw [if_neg (by decide), Part.forChannels_modCtx (fun _ x => { x with state := .safeOff }),
      foldl_set_idem (fun _ (x : Context) => { x with state := .safeOff }) fun _ _ => rfl]
    have all : changedAt p.ctx channels (fun _ x => { x with state := .safeOff }) =
        .ofFn (fun c => { p.ctx.get c with state := .safeOff }) := Six.ext_get fun c => by simp [mem_channels]
    exact congrArg (fun ctx => ({ p with ctx := ctx, torque := { p.torque with ten := false, drop := true } } : Part)) all

/-- The start states keep the properties: while RESET was low no channel was active. -/
theorem steady_startStates (p : Part) (held : p.held = true) (tenHigh : Bool) :
    Steady p (({ p with held := false } : Part).startStates tenHigh) := by
  rw [Part.startStates_eq]
  cases tenHigh with
  | true =>
    exact ⟨⟨fun sound => ⟨fun h => (nomatch h), sound.2⟩, id, id, id, id, id, id⟩, fun sound => ⟨fun low => (nomatch low), sound.2⟩⟩
  | false =>
    have ctx (c : Channel) : (Six.ofFn (fun c => { p.ctx.get c with state := .safeOff })).get c =
        { p.ctx.get c with state := .safeOff } := Six.get_ofFn _ c
    refine ⟨⟨fun sound => ⟨fun h => (nomatch h), fun c _ => ?_⟩, id, id, fun sound c => ?_, fun sound => ?_, ?_, fun _ c => ?_⟩, fun _ => ?_⟩
    · have inactive := sound.1 held c
      have off : (p.stateOf c).bridgeOn = false := by
        cases h : p.stateOf c <;> simp [h, ChState.active] at inactive <;> rfl
      obtain ⟨legs, onTimes, waiting, setpoint⟩ := sound.2 c off
      refine ⟨legs, onTimes, waiting, fun _ => ?_⟩
      exact (congrArg Context.setpoint (ctx c)).trans (setpoint inactive)
    · exact (ctx c).symm ▸ sound c
    · rw [Part.settingsSound_iff] at sound ⊢
      refine ⟨sound.1, sound.2.1, fun c => ?_⟩
      have offsets := sound.2.2 c
      simpa [Part.offsetsAt] using offsets
    · rintro ⟨once, holders, -⟩
      exact ⟨once, holders, fun c active => by simp [Part.stateOf, ChState.active] at active⟩
    · exact ⟨fun h => by simp [Part.stateOf] at h, fun _ => Or.inr (by simp [Part.stateOf])⟩
    · exact ⟨fun _ => rfl, fun c => by simp [Part.stateOf]⟩

theorem steady_startLink (p : Part) (l : Link) (low : Bool) : Steady p (p.startLink l low) := by
  unfold Part.startLink
  split
  · exact Steady.modLink p l _ ⟨id, id⟩
  · exact Steady.refl p

theorem steady_resetEnd (p : Part) (tenHigh : Bool) (bflt : Six Bool) (sel : Three Bool) :
    Steady p (p.resetEnd tenHigh bflt sel) := by
  unfold Part.resetEnd
  split
  · next held =>
    have started := (steady_startStates p held tenHigh).trans
      (((steady_startLink _ .a (sel.get .a)).trans (steady_startLink _ .b (sel.get .b))).trans (steady_startLink _ .s (sel.get .s)))
    refine started.trans ?_
    exact Steady.forChannels (fun c r => r.bfltActive c) (fun c r => steady_bfltActive r c) _ _
  · exact Steady.refl p

end Sys2Proof.Machine

/-! SUPPORT. Every request keeps the properties: the replies fit a frame, a batch stays within its bounds, and the checks of the binding
unit keep a channel in one entry of its holder. -/

namespace Sys2Proof.Machine

/-! ### Replies -/

theorem Reply.form_sound (k : ReplyKind) {payload : List Byte} (h : payload.length ≤ 60) : (Reply.form k payload).sound := ⟨h, rfl⟩

theorem steady_setReply (p : Part) (l : Link) {r : Reply} (h : r.sound) : Steady p (p.setReply l r) :=
  Steady.modLink p l _ ⟨id, fun _ => h⟩

theorem steady_done (p : Part) (l : Link) (k : Kind) {fields : List Byte} (h : fields.length ≤ 59) : Steady p (p.done l k fields) :=
  steady_setReply p l (Reply.form_sound _ (by rw [List.length_cons]; omega))

theorem steady_refuse (p : Part) (l : Link) (k : Kind) (r : Reason) : Steady p (p.refuse l k r) :=
  steady_setReply p l (Reply.form_sound _ (by rw [List.length_cons, List.length_singleton]; omega))

theorem length_flatMap_le {α β : Type} (f : α → List β) (n : ℕ) (xs : List α) (h : ∀ x ∈ xs, (f x).length ≤ n) :
    (xs.flatMap f).length ≤ xs.length * n := by
  rw [List.length_flatMap, ← List.length_map (f := fun x => (f x).length)]
  refine (List.sum_le_card_nsmul _ n ?_).trans_eq (smul_eq_mul _ _)
  simpa using h

/-! ### Frames -/

theorem steady_endFrame (p : Part) (l : Link) (out : List Byte) : Steady p (p.endFrame l out) := Steady.modLink p l _ ⟨id, id⟩

theorem steady_endIgnored (p : Part) (l : Link) : Steady p (p.endIgnored l) := Steady.modLink p l _ ⟨id, id⟩

theorem steady_frameStart (p : Part) (l : Link) : Steady p (p.frameStart l) := by
  unfold Part.frameStart
  split
  · exact Steady.refl p
  · cases (p.links.get l).rx with
    | idle => exact Steady.modLink p l _ ⟨id, id⟩
    | inFrame _ | ignoring => exact Steady.refl p

theorem steady_ignoredFrameEnd (p : Part) (l : Link) : Steady p (p.ignoredFrameEnd l) := by
  unfold Part.ignoredFrameEnd
  split
  · exact Steady.refl p
  · cases (p.links.get l).rx with
    | ignoring => exact steady_endIgnored p l
    | idle | inFrame _ => exact Steady.refl p

theorem steady_noBatch (p : Part) (m : Motion) : Steady p { p with batches := p.batches.set m none } :=
  Steady.batch p m none fun _ h => nomatch h

theorem steady_loseBatch (p : Part) (m : Motion) : Steady p (p.loseBatch m) := (steady_noBatch p m).trans (steady_send ..)

theorem steady_rejectFrame (p : Part) (l : Link) (c : Subcode) : Steady p (p.rejectFrame l c) := by
  have replied : Steady p (p.setReply l (.form .frameError [c.code])) := steady_setReply p l (Reply.form_sound _ (by simp))
  unfold Part.rejectFrame
  dsimp only
  split
  · split
    · exact replied.trans (steady_loseBatch ..)
    · exact replied
  · exact replied

/-- A frame that is taken keeps what its judgement keeps; no frame is taken while RESET is low. -/
theorem steady_takeFrame (p : Part) (l : Link) (n : ℕ) (f : Part → Part) (h : p.held = false → Steady p (f p)) :
    Steady p (p.takeFrame l n f) := by
  unfold Part.takeFrame
  split
  · exact Steady.refl p
  · next released =>
    have taken := h (by simpa using released)
    cases (p.links.get l).rx with
    | ignoring => exact steady_endIgnored p l
    | idle | inFrame _ => exact taken.trans (steady_endFrame ..)

theorem steady_request (p : Part) (l : Link) (payload : List Byte) (f : Part → Part) (h : p.held = false → Steady p (f p)) :
    Steady p (p.request l payload f) := by
  refine steady_takeFrame p l _ _ fun released => ?_
  split
  · exact h released
  · exact steady_rejectFrame p l _

theorem steady_onMotion (p : Part) (l : Link) (k : Kind) (f : Motion → Part → Part) (h : ∀ m, Steady p (f m p)) :
    Steady p (p.onMotion l k f) := by
  unfold Part.onMotion
  split
  · exact h _
  · exact steady_refuse ..

theorem steady_onSupervisor (p : Part) (l : Link) (k : Kind) (f : Part → Part) (h : Steady p (f p)) :
    Steady p (p.onSupervisor l k f) := by
  unfold Part.onSupervisor
  cases l with
  | a | b => exact steady_refuse ..
  | s => exact h

/-! ### Requests of every link -/

theorem steady_linkResetReq (p : Part) (l : Link) (payload : List Byte) : Steady p (p.linkResetReq l payload) := by
  unfold Part.linkResetReq
  split
  · have cleared : Steady p (p.modLink l
        (fun i => ({ i with queue := [], overrun := false, reply := .form .empty [] }).follow)) :=
      Steady.modLink p l _ ⟨fun _ => ⟨Nat.zero_le _, fun _ h => (nomatch h), rfl⟩, fun _ => Reply.form_sound _ (Nat.zero_le _)⟩
    dsimp only
    split
    · exact cleared.trans (steady_noBatch ..)
    · exact cleared
  · exact steady_refuse ..

theorem statusEntry_length (p : Part) (head : ℕ) (c : Channel) : (p.statusEntry head c).length = 5 := rfl

theorem SlotEntry.members_length_le (e : SlotEntry) : e.members.length ≤ 2 := by
  unfold SlotEntry.members
  split <;> simp

theorem statusSlot_length_le (p : Part) (o : Option SlotEntry) : (p.statusSlot o).length ≤ 11 := by
  cases o with
  | none => exact Nat.le_of_ble_eq_true rfl
  | some e =>
    have entries := length_flatMap_le (fun m : Member => p.statusEntry (m.ch.val + bit m.reversed * 128) m.ch) 5 e.members
      fun _ _ => le_rfl
    have two := e.members_length_le
    simp only [Part.statusSlot, List.length_append, put8_length]
    omega

theorem statusBytes_length_le (p : Part) (l : Link) : (p.statusBytes l).length ≤ 59 := by
  unfold Part.statusBytes
  split
  · next m _ =>
    have slots := length_flatMap_le p.statusSlot 11 (p.binding.maps.get m).toList fun o _ => statusSlot_length_le p o
    have four : (p.binding.maps.get m).toList.length = 4 := rfl
    simp only [Part.statusMotion, List.length_append, put8_length]
    omega
  · simp [Part.statusSupervisor, channels, statusEntry_length]

theorem steady_setSeen (p : Part) (l : Link) (c : Channel) (x : CauseSet) : Steady p (p.setSeen l c x) := Steady.seen p _

theorem steady_statusReq (p : Part) (l : Link) (payload : List Byte) : Steady p (p.statusReq l payload) := by
  unfold Part.statusReq
  split
  · exact (Steady.forChannels (fun c q => q.setSeen l c (q.causesOf c)) (fun c q => steady_setSeen q l c _) _ p).trans
      (steady_done _ l _ (statusBytes_length_le p l))
  · exact steady_refuse ..

theorem steady_eventsReq (p : Part) (l : Link) (payload : List Byte) : Steady p (p.eventsReq l payload) := by
  unfold Part.eventsReq
  split
  · have fetched : Steady p (p.modLink l
        (fun i => ({ i with queue := i.queue.drop Config.eventsPerReply, overrun := false }).follow)) := by
      refine Steady.modLink p l _ ⟨fun sound => ?_, id⟩
      obtain ⟨bound, counts, -⟩ := sound
      exact ⟨(List.length_drop ▸ Nat.sub_le _ _).trans bound, fun e he => counts e (List.mem_of_mem_drop he), rfl⟩
    refine fetched.trans (steady_done _ l _ ?_)
    have entries := length_flatMap_le QueueEntry.bytes 6 ((p.links.get l).queue.take Config.eventsPerReply) fun _ _ => le_rfl
    have eight : ((p.links.get l).queue.take Config.eventsPerReply).length ≤ 8 := List.length_take_le _ _
    simp only [List.length_append, put8_length]
    omega
  · exact steady_refuse ..

theorem CompRecord.bytes_length (r : CompRecord) : r.bytes.length = 38 := by
  simp only [CompRecord.bytes, List.length_append, put8_length, put16_length, putS16_length, putS32_length]

theorem steady_readReq (p : Part) (l : Link) (payload : List Byte) : Steady p (p.readReq l payload) := by
  unfold Part.readReq
  split
  · exact steady_refuse ..
  · split
    · exact steady_done p l _ (by rw [List.length_append, CompRecord.bytes_length, put8_length]; omega)
    · exact steady_refuse ..

/-! ### ACK -/

theorem CauseSet.ext_has {x y : CauseSet} (h : ∀ c, x.has c = y.has c) : x = y := by
  have h1 := h .bridge; have h2 := h .overcurrent; have h3 := h .busOv; have h4 := h .busUv
  have h5 := h .sampleLoss; have h6 := h .offsetRange; have h7 := h .setpointTimeout; have h8 := h .partner
  cases x; cases y
  simp_all [CauseSet.has]

/-- What an ACK leaves of a cause set: what is not seen, and BRIDGE while its line is active. -/
theorem Part.acked_has (p : Part) (l : Link) (c : Channel) (x : Cause) :
    (p.acked l c).has x =
      ((p.causesOf c).has x && (!(p.seenOf l c).has x || (Decidable.decide (x = .bridge) && p.torque.bflt.get c))) := by
  unfold Part.acked
  cases p.torque.bflt.get c <;> cases x <;> simp [CauseSet.has, CauseSet.diff]

theorem Part.acked_of_empty {p : Part} {c : Channel} (l : Link) (none : p.causesOf c = .empty) : p.acked l c = .empty := by
  refine CauseSet.ext_has fun x => ?_
  rw [Part.acked_has, none]
  cases x <;> rfl

theorem Part.ackOne_stateOf (p : Part) (l : Link) (c : Channel) :
    (p.ackOne l c).stateOf c = if p.stateOf c = .fault ∧ p.acked l c = .empty then .off else p.stateOf c := by
  simp only [Part.ackOne, Bool.and_eq_true, decide_eq_true_eq, CauseSet.isEmpty_iff]
  split
  · exact Part.enter_stateOf ..
  · rfl

theorem Part.ackOne_causesOf (p : Part) (l : Link) (c : Channel) : (p.ackOne l c).causesOf c = p.acked l c := by
  simp only [Part.ackOne]
  split <;> simp [Part.causesOf]

theorem OnlyAt.ackOne (p : Part) (l : Link) (c : Channel) : OnlyAt c p (p.ackOne l c) := by
  have cleared : OnlyAt c p ((p.setCauses c (p.acked l c)).setSeen l c .empty) := (setCauses ..).trans (setSeen ..)
  simp only [Part.ackOne]
  split
  · exact cleared.trans (enter ..)
  · exact cleared

theorem steady_ackOne (p : Part) (l : Link) (c : Channel) : Steady p (p.ackOne l c) := by
  have only := OnlyAt.ackOne p l c
  have state := p.ackOne_stateOf l c
  have causes := p.ackOne_causesOf l c
  have items : (p.ackOne l c).carrier = p.carrier ∧ (p.ackOne l c).sense = p.sense ∧
      ∃ st, (p.ackOne l c).ctx.get c = { p.ctx.get c with state := st } := by
    simp only [Part.ackOne]
    split
    · exact ⟨by simp [Part.setSeen, Part.setCauses], by simp [Part.setSeen, Part.setCauses], _, by simp; rfl⟩
    · exact ⟨rfl, rfl, _, rfl⟩
  obtain ⟨carrier, sense, st, ctx⟩ := items
  have inactive : p.stateOf c = .fault ∧ p.acked l c = .empty → (p.stateOf c).active = false := by
    rintro ⟨fault, -⟩; rw [fault]; rfl
  refine only.steady (only.keeps ?_ (fun off => ?_) ?_ ?_ fun sound => ?_) ?_
  · rw [state]
    split
    · exact fun h => nomatch h
    · exact Or.inl
  · have sameSetpoint : ((p.ackOne l c).ctx.get c).setpoint = (p.ctx.get c).setpoint := by rw [ctx]
    unfold Part.offAt
    rw [carrier, sameSetpoint, state]
    split
    · next exits =>
      obtain ⟨legs, onTimes, waiting, setpoint⟩ := off (by rw [exits.1]; rfl)
      exact fun _ => ⟨legs, onTimes, waiting, fun _ => setpoint (inactive exits)⟩
    · exact off
  · rw [ctx]; exact id
  · unfold Part.offsetsAt; rw [sense, ctx]; exact id
  · obtain ⟨some, fault⟩ := sound
    rw [Part.causesAt, causes, state]
    split
    · next exits => exact ⟨fun h => (nomatch h), fun h => absurd exits.2 h⟩
    · next stays =>
      refine ⟨fun h none => stays ⟨h, none⟩, fun h => fault fun none => h (Part.acked_of_empty l none)⟩
  · rw [state]
    split
    · next exits => rw [exits.1]; simp
    · exact Iff.rfl

theorem steady_ackChannels (p : Part) (l : Link) (cs : List Channel) (few : cs.length ≤ 6) : Steady p (p.ackChannels l cs) := by
  refine (Steady.forChannels (fun c q => q.ackOne l c) (fun c q => steady_ackOne q l c) cs p).trans (steady_done _ l _ ?_)
  simp only [Part.ackBytes]
  have entries := length_flatMap_le (fun c : Channel => put8 c.val ++
    put8 ((p.forChannels cs (fun c q => q.ackOne l c)).stateOf c).code ++
    put8 ((p.forChannels cs (fun c q => q.ackOne l c)).causesOf c).code) 3 cs fun _ _ => le_rfl
  rw [List.length_append, put8_length]
  omega

theorem steady_ackReq (p : Part) (l : Link) (payload : List Byte) : Steady p (p.ackReq l payload) := by
  unfold Part.ackReq
  split
  · split
    · exact steady_refuse ..
    · split
      · exact steady_refuse ..
      · exact steady_ackChannels p l _ (SlotEntry.ascending_length_le _)
  · split
    · exact steady_refuse ..
    · next mask =>
      obtain ⟨b, -, -, rfl⟩ := onlyMask_eq_some mask
      exact steady_ackChannels p l _ (namedChannels_length_le b)

/-! ### Claims and slot maps -/

theorem holderBytes_length (p : Part) : p.holderBytes.length = 6 := rfl

/-- The holders changed, the maps left as they are: a named channel keeps its holder. -/
theorem steady_setHolder (p : Part) (c : Channel) (h : Option Motion)
    (kept : ∀ m, c ∈ p.mapChannels m → p.binding.holders.get c = some m → h = some m) : Steady p (p.setHolder c h) := by
  refine Steady.bindingUnit p _ ?_
  rintro ⟨once, holders, mapped⟩
  refine ⟨once, fun m d named => ?_, mapped⟩
  dsimp only
  rw [Six.get_set]
  split
  · next e => subst e; exact kept m named (holders m c named)
  · exact holders m d named

theorem steady_refuseHeld (p : Part) (l : Link) (k : Kind) {cs : List Channel} (few : cs.length ≤ 6) :
    Steady p (p.refuseHeld l k cs) := by
  refine steady_setReply p l (Reply.form_sound _ ?_)
  simp only [List.length_append, List.length_cons, List.length_nil, List.length_flatMap, put8_length, List.map_const',
    List.sum_replicate, smul_eq_mul]
  omega

theorem steady_claimReq (p : Part) (l : Link) (payload : List Byte) : Steady p (p.claimReq l payload) := by
  refine steady_onMotion p l _ _ fun m => ?_
  split
  · exact steady_refuse ..
  · next cs mask =>
    obtain ⟨b, -, -, rfl⟩ := onlyMask_eq_some mask
    split
    · exact steady_refuseHeld p l _ (namedChannels_length_le b)
    · next free =>
      have claimed : Steady p (p.forChannels (namedChannels b) (fun c q => q.setHolder c (some m))) ∧
          ∀ c ∈ namedChannels b, (p.forChannels (namedChannels b) (fun c q => q.setHolder c (some m))).heldElsewhere m c = false := by
        refine Part.forChannels_keeps_mem
          (fun q => Steady p q ∧ ∀ c ∈ namedChannels b, q.heldElsewhere m c = false) _ _ p ?_ ⟨Steady.refl p, ?_⟩
        · rintro c hc q ⟨steady, unheld⟩
          refine ⟨steady.trans (steady_setHolder q c _ fun m' _ held => ?_), fun d hd => ?_⟩
          · have mine := unheld c hc
            have same : m' = m := by simpa [Part.heldElsewhere, Part.heldBy, held] using mine
            rw [same]
          · have before := unheld d hd
            simp only [Part.heldElsewhere, Part.heldBy, Part.setHolder, Six.get_set] at before ⊢
            split
            · simp
            · exact before
        · simpa using free
      exact claimed.1.trans (steady_done _ l _ (by rw [holderBytes_length]; omega))

theorem steady_unhold (p : Part) (m : Motion) (c : Channel) (unmapped : ∀ m, c ∉ p.mapChannels m) : Steady p (p.unhold m c) :=
  (steady_setHolder p c none fun m' named => absurd named (unmapped m')).trans (steady_setSeen ..)

theorem steady_releaseReq (p : Part) (l : Link) (payload : List Byte) : Steady p (p.releaseReq l payload) := by
  refine steady_onMotion p l _ _ fun m => ?_
  split
  · exact steady_refuse ..
  · next cs _ =>
    split
    · exact steady_refuse ..
    · split
      · exact steady_refuse ..
      · next unmapped =>
        have free : ∀ c ∈ cs, ∀ m, c ∉ p.mapChannels m := by
          intro c hc m' named
          refine unmapped (List.any_eq_true.mpr ⟨c, hc, Part.mapped_iff.mpr ?_⟩)
          obtain ⟨k, e, b⟩ := Part.mem_mapChannels.mp named
          exact Part.mem_mapChannels_both.mpr ⟨m', k, e, b⟩
        have released : Steady p (p.forChannels cs (fun c q => q.unhold m c)) ∧
            ∀ c ∈ cs, ∀ m', c ∉ (p.forChannels cs (fun c q => q.unhold m c)).mapChannels m' :=
          Part.forChannels_keeps_mem (fun q => Steady p q ∧ ∀ c ∈ cs, ∀ m', c ∉ q.mapChannels m') _ cs p
            (fun c hc q h => ⟨h.1.trans (steady_unhold q m c (h.2 c hc)), h.2⟩) ⟨Steady.refl p, free⟩
        exact released.1.trans (steady_done _ l _ (by rw [holderBytes_length]; omega))

theorem SlotEntry.memberBytes_length_le (e : SlotEntry) : e.memberBytes.length ≤ 4 := by
  have pairs := length_flatMap_le (fun m : Member => put8 m.ch.val ++ put8 (bit m.reversed)) 2 e.members fun _ _ => le_rfl
  have two := e.members_length_le
  unfold SlotEntry.memberBytes
  omega

/-- A link slot bound to an entry of channels that its link holds and that no entry names. -/
theorem steady_bindSlot (p : Part) (m : Motion) (k : LinkSlot) (e : SlotEntry) (nodup : e.chans.Nodup)
    (held : ∀ c ∈ e.chans, p.binding.holders.get c = some m)
    (free : ∀ c ∈ e.chans, ∀ m' k' e', ¬p.boundAt m' k' e' c) (unbound : p.entryAt m k = none) :
    Steady p (p.setSlot m k (some e)) := by
  refine Steady.bindingUnit p _ ?_
  change p.bindingSound → (p.setSlot m k (some e)).bindingSound
  rw [Part.bindingSound_iff, Part.bindingSound_iff]
  intro sound
  have cases : ∀ {n j s c}, (p.setSlot m k (some e)).boundAt n j s c → m = n ∧ k = j ∧ s = e ∧ c ∈ e.chans ∨ p.boundAt n j s c := by
    rintro n j s c ⟨bound, named⟩
    rw [Part.setSlot_entryAt] at bound
    split at bound
    · next here => cases bound; exact Or.inl ⟨here.1, here.2, rfl, named⟩
    · exact Or.inr ⟨bound, named⟩
  refine ⟨fun {n j s} bound => ?_, fun {n j s n' j' s' c} b b' => ?_, fun {n j s c} b => ?_, fun c active => ?_⟩
  · rw [Part.setSlot_entryAt] at bound
    split at bound
    · cases bound; exact nodup
    · exact sound.once bound
  · rcases cases b with ⟨rfl, rfl, -, named⟩ | b
    · rcases cases b' with ⟨rfl, rfl, -, -⟩ | b'
      · exact ⟨rfl, rfl⟩
      · exact absurd b' (free c named _ _ _)
    · rcases cases b' with ⟨rfl, rfl, -, named⟩ | b'
      · exact absurd b (free c named _ _ _)
      · exact sound.unique b b'
  · rcases cases b with ⟨rfl, rfl, -, named⟩ | b
    · exact held c named
    · exact sound.holder b
  · obtain ⟨n, j, s, bound, named⟩ := sound.mapped c active
    refine ⟨n, j, s, ?_, named⟩
    rw [Part.setSlot_entryAt, if_neg, bound]
    rintro ⟨rfl, rfl⟩
    rw [unbound] at bound; cases bound

theorem steady_mapReq (p : Part) (l : Link) (payload : List Byte) : Steady p (p.mapReq l payload) := by
  refine steady_onMotion p l _ _ fun m => ?_
  split
  · exact steady_refuse ..
  · next k e _ =>
    split
    · exact steady_refuse ..
    · next unbound =>
      split
      · exact steady_refuse ..
      · next nodup =>
        split
        · exact steady_refuse ..
        · next held =>
          split
          · exact steady_refuse ..
          · next free =>
            refine (steady_bindSlot p m k e (by simpa using nodup) (fun c hc => ?_) (fun c hc m' k' e' b => ?_) ?_).trans
              (steady_done _ l _ ?_)
            · by_contra other
              exact held (List.any_eq_true.mpr ⟨c, hc, by simpa [Part.heldBy] using other⟩)
            · exact free (List.any_eq_true.mpr ⟨c, hc, Part.mapped_iff.mpr (Part.mem_mapChannels_both.mpr ⟨m', k', e', b⟩)⟩)
            · simpa [Part.entryAt] using unbound
            · have := e.memberBytes_length_le
              rw [List.length_append, put8_length]
              omega

theorem steady_dropSetpoint (p : Part) (c : Channel) : Steady p (p.modCtx c (fun x => { x with setpoint := none })) := by
  refine (OnlyAt.modCtx p c _).steady_of_state ?_ rfl (fun off isOff => ?_) ?_ ?_
  · simp [Part.stateOf]
  · obtain ⟨legs, onTimes, waiting, -⟩ := off (by simpa [Part.stateOf] using isOff)
    exact ⟨legs, onTimes, waiting, fun _ => by simp⟩
  · rw [Part.modCtx_ctx, Six.get_set_same]; exact id
  · unfold Part.offsetsAt; rw [Part.modCtx_ctx, Six.get_set_same]; exact id

theorem steady_dropSetpoints (p : Part) (cs : List Channel) : Steady p (p.dropSetpoints cs) :=
  Steady.forChannels (fun c q => q.modCtx c (fun x => { x with setpoint := none })) (fun c q => steady_dropSetpoint q c) cs p

/-- An entry removed whose members are not active. -/
theorem steady_clearSlot (p : Part) (m : Motion) (k : LinkSlot)
    (inactive : ∀ e c, p.boundAt m k e c → (p.stateOf c).active = false) : Steady p (p.setSlot m k none) := by
  refine Steady.bindingUnit p _ ?_
  change p.bindingSound → (p.setSlot m k none).bindingSound
  rw [Part.bindingSound_iff, Part.bindingSound_iff]
  intro sound
  refine ⟨fun {n j s} bound => ?_, fun {n j s n' j' s' c} b b' => ?_, fun {n j s c} b => ?_, fun c active => ?_⟩
  · rw [Part.setSlot_entryAt] at bound
    split at bound
    · cases bound
    · exact sound.once bound
  · exact sound.unique (Part.setSlot_none_boundAt.mp b).2 (Part.setSlot_none_boundAt.mp b').2
  · exact sound.holder (Part.setSlot_none_boundAt.mp b).2
  · obtain ⟨n, j, s, b⟩ := sound.mapped c active
    refine ⟨n, j, s, Part.setSlot_none_boundAt.mpr ⟨?_, b⟩⟩
    rintro ⟨rfl, rfl⟩
    rw [← Bool.not_eq_false] at active
    exact active (inactive s c b)

theorem steady_unmapReq (p : Part) (l : Link) (payload : List Byte) : Steady p (p.unmapReq l payload) := by
  refine steady_onMotion p l _ _ fun m => ?_
  split
  · exact steady_refuse ..
  · next k _ =>
    split
    · exact steady_refuse ..
    · next e bound =>
      split
      · exact steady_refuse ..
      · next inactive =>
        refine ((steady_clearSlot p m k fun e' c b => ?_).trans (steady_dropSetpoints ..)).trans (steady_done _ l _ (by simp))
        have same : e' = e := Option.some.inj (b.1.symm.trans bound)
        by_contra active
        exact inactive (List.any_eq_true.mpr ⟨c, same ▸ b.2, by simpa using active⟩)

/-! ### REVOKE -/

theorem Part.stop_stateOf (p : Part) (c d : Channel) :
    (p.stop c).stateOf d = if c = d ∧ (p.stateOf c).active = true then .off else p.stateOf d := by
  unfold Part.stop
  split
  · next active => rw [Part.leaveTo_stateOf]; simp [active]
  · next rest => simp [rest]

@[simp] theorem Part.stop_binding (p : Part) (c : Channel) : (p.stop c).binding = p.binding := by
  unfold Part.stop; split <;> simp

theorem Part.stop_inactive (p : Part) (c : Channel) : ((p.stop c).stateOf c).active = false := by
  rw [Part.stop_stateOf]
  split
  · rfl
  · next rest => simpa using rest

theorem Part.stop_inactive_of_inactive (p : Part) (c d : Channel) (h : (p.stateOf d).active = false) :
    ((p.stop c).stateOf d).active = false := by
  rw [Part.stop_stateOf]
  split
  · rfl
  · exact h

/-- Stopping a channel reads the holders, not the maps. -/
theorem Part.stop_setSlot (p : Part) (m : Motion) (k : LinkSlot) (e : Option SlotEntry) (c : Channel) :
    (p.setSlot m k e).stop c = (p.stop c).setSlot m k e := by
  have sent (q : Part) (ev : EventKind) (d : Detail) : (q.setSlot m k e).sendChannel ev c d = (q.sendChannel ev c d).setSlot m k e := by
    cases h : q.binding.holders.get c <;> simp [Part.sendChannel, Part.setSlot, h, Part.send, Part.modLink]
  unfold Part.stop
  by_cases active : (p.stateOf c).active = true
  · have active' : ((p.setSlot m k e).stateOf c).active = true := active
    rw [if_pos active, if_pos active']
    have left : (p.setSlot m k e).leaveActive c = (p.leaveActive c).setSlot m k e := by
      have state : (p.setSlot m k e).stateOf c = p.stateOf c := rfl
      unfold Part.leaveActive
      rw [state]
      cases p.stateOf c <;> rfl
    unfold Part.leaveTo Part.enter
    rw [left, ← sent]
    rfl
  · have rest' : ¬((p.setSlot m k e).stateOf c).active = true := active
    rw [if_neg active, if_neg rest']

/-- The entry of a channel removed: the partner is stopped, and no slot names the channel any more. -/
theorem steady_removeEntry (p : Part) (c : Channel) (inactive : (p.stateOf c).active = false) : Steady p (p.removeEntry c) := by
  unfold Part.removeEntry
  split
  · next m k e found =>
    have bound := Part.boundAt_of_entryOf found
    refine Steady.trans ?_ (steady_dropSetpoints _ _)
    cases partner : p.partnerOf c with
    | none =>
      refine steady_clearSlot p m k fun e' d b => ?_
      have same : e' = e := Option.some.inj (b.1.symm.trans bound.1)
      have single : e.second = none := by
        simp only [Part.partnerOf, found] at partner
        cases second : e.second with
        | none => rfl
        | some y => rw [second] at partner; dsimp only at partner; split at partner <;> cases partner
      obtain ⟨x, second⟩ := e
      cases single
      have d_eq : d = x.ch := by simpa [same] using b.2
      have c_eq : c = x.ch := by simpa using bound.2
      rw [d_eq, ← c_eq]; exact inactive
    | some d =>
      dsimp only
      rw [Part.stop_setSlot]
      refine (steady_stop p d).trans (steady_clearSlot _ m k fun e' c' b => ?_)
      have b' : p.boundAt m k e' c' := by simpa [Part.boundAt, Part.entryAt] using b
      have same : e' = e := Option.some.inj (b'.1.symm.trans bound.1)
      simp only [Part.partnerOf, found] at partner
      obtain ⟨x, second⟩ := e
      cases second with
      | none => cases partner
      | some y =>
        have named : c = x.ch ∨ c = y.ch := by simpa using bound.2
        have one : c' = x.ch ∨ c' = y.ch := by simpa [same] using b'.2
        have mates : c' = c ∨ c' = d := by
          dsimp only at partner
          split at partner
          · next first =>
            have : y.ch = d := Option.some.inj partner
            rcases one with h | h
            · exact Or.inl (h.trans first)
            · exact Or.inr (h.trans this)
          · next other =>
            have : x.ch = d := Option.some.inj partner
            have second : c = y.ch := named.resolve_left (Ne.symm other)
            rcases one with h | h
            · exact Or.inr (h.trans this)
            · exact Or.inl (h.trans second.symm)
        rcases mates with rfl | rfl
        · exact p.stop_inactive_of_inactive d c' inactive
        · exact p.stop_inactive c'
  · exact Steady.refl p

theorem Part.dropSetpoints_eq (p : Part) (cs : List Channel) :
    p.dropSetpoints cs = { p with ctx := changedAt p.ctx cs (fun _ x => { x with setpoint := none }) } := by
  unfold Part.dropSetpoints
  rw [Part.forChannels_modCtx (fun _ x => { x with setpoint := none }),
    foldl_set_idem (fun _ (x : Context) => { x with setpoint := none }) fun _ _ => rfl]

/-- What the removal of the entry of a channel leaves of the maps. -/
theorem Part.removeEntry_binding (p : Part) (c : Channel) :
    (p.removeEntry c).binding = match p.entryOf c with
      | some (m, k, _) => (p.setSlot m k none).binding
      | none => p.binding := by
  unfold Part.removeEntry
  cases found : p.entryOf c with
  | none => rfl
  | some x =>
    obtain ⟨m, k, e⟩ := x
    dsimp only
    rw [Part.dropSetpoints_eq]
    cases p.partnerOf c with
    | none => rfl
    | some d => exact Part.stop_binding ..

/-- After the removal of its entry no slot names a channel. -/
theorem Part.removeEntry_unmapped {p : Part} (sound : p.EntriesSound) (c : Channel) (m : Motion) (k : LinkSlot) (e : SlotEntry) :
    ¬(p.removeEntry c).boundAt m k e c := by
  intro b
  have binding := p.removeEntry_binding c
  cases found : p.entryOf c with
  | none =>
    rw [found] at binding
    simp only [Part.boundAt, Part.entryAt, binding] at b
    exact Part.entryOf_eq_none_iff.mp found m k e b
  | some x =>
    obtain ⟨m', k', e'⟩ := x
    rw [found] at binding
    have b' : (p.setSlot m' k' none).boundAt m k e c := by
      simp only [Part.boundAt, Part.entryAt, binding] at b
      exact b
    obtain ⟨other, before⟩ := Part.setSlot_none_boundAt.mp b'
    exact other (sound.unique (Part.boundAt_of_entryOf found) before)

theorem steady_revokeOne (p : Part) (c : Channel) : Steady p (p.revokeOne c) := by
  unfold Part.revokeOne
  split
  · next m _ =>
    have stopped := steady_stop p c
    have removed := steady_removeEntry (p.stop c) c (p.stop_inactive c)
    have before := stopped.trans removed
    have unheld : Steady p (((p.stop c).removeEntry c).setHolder c none) := by
      refine ⟨⟨before.bridge, before.queues, before.replies, before.limits, before.settings, fun sound => ?_, before.causes⟩,
        before.torque⟩
      refine (steady_setHolder _ c none fun m' named => ?_).binding (before.binding sound)
      obtain ⟨k, e, b⟩ := Part.mem_mapChannels.mp named
      exact absurd b (Part.removeEntry_unmapped ((Part.bindingSound_iff _).mp (stopped.binding sound)) c m' k e)
    exact (unheld.trans (steady_setSeen ..)).trans ((steady_send ..).trans (steady_send ..))
  · exact Steady.refl p

end Sys2Proof.Machine

/-! SUPPORT. ENABLE, the batches, the parameters and the settings of Link S keep the properties; with them every command does, and the
five statements about every step follow. -/

namespace Sys2Proof.Machine

/-! ### ENABLE and DISABLE -/

theorem enableStates_eq_none {sts : List ChState} (h : enableStates sts = none) : ∀ st ∈ sts, st = .off := by
  unfold enableStates at h
  split at h
  · next all => simpa using all
  · split at h
    · cases h
    · split at h <;> cases h

theorem Part.off_of_enableRefusal {p : Part} {cs : List Channel} (h : p.enableRefusal cs = none) :
    ∀ c ∈ cs, p.stateOf c = .off := by
  unfold Part.enableRefusal at h
  split at h
  · cases h
  · next passed => exact fun c hc => enableStates_eq_none passed _ (List.mem_map_of_mem hc)

theorem OnlyAt.enterCapture (p : Part) (c : Channel) : OnlyAt c p (p.enterCapture c) :=
  ((modDrive ..).trans (modCtx ..)).trans ((modSense ..).trans (enter ..))

/-- A mapped channel in OFF, or just taken to CAPTURE, enters CAPTURE while RESET is high. -/
theorem steady_enterCapture (p : Part) (c : Channel) (released : p.held = false) (named : c ∈ p.mapChannels .a ++ p.mapChannels .b)
    (state : p.stateOf c = .off ∨ p.stateOf c = .capture) : Steady p (p.enterCapture c) := by
  have only := OnlyAt.enterCapture p c
  have after : (p.enterCapture c).stateOf c = .capture := Part.enter_stateOf ..
  have bridgeOff : (p.stateOf c).bridgeOn = false := by rcases state with h | h <;> rw [h] <;> rfl
  refine only.steady (only.keeps (fun _ => Or.inr ⟨released, named⟩) (fun off _ => ?_) ?_ ?_ fun sound => ?_) ?_
  · obtain ⟨legs, -, -, -⟩ := off bridgeOff
    refine ⟨?_, ?_, ?_, fun h => absurd (after ▸ h) (by decide)⟩
    · simpa [Part.enterCapture] using legs
    · simp [Part.enterCapture]
    · simp [Part.enterCapture]
  · unfold Part.enterCapture; rw [Part.enter_ctx, Six.get_set_same]; simp only [Part.modSense_ctx, Part.modCtx_ctx, Six.get_set_same]
    exact id
  · simp [Part.offsetsAt, Part.enterCapture, Context.enterCapture, Sense.enterCapture]
  · have none : (p.enterCapture c).causesOf c = .empty := by
      have same : (p.enterCapture c).causesOf c = p.causesOf c := by simp [Part.causesOf, Part.enterCapture]
      rw [same]
      by_contra some
      rcases state with h | h <;> rcases sound.2 some with e | e <;> rw [h] at e <;> cases e
    exact ⟨fun h => absurd (after ▸ h) (by decide), fun h => absurd none h⟩
  · rw [after]; exact iff_of_false (by decide) (by rcases state with h | h <;> rw [h] <;> decide)

theorem steady_enableReq (p : Part) (l : Link) (payload : List Byte) (released : p.held = false) :
    Steady p (p.enableReq l payload) := by
  refine steady_onMotion p l _ _ fun m => ?_
  split
  · exact steady_refuse ..
  · next k _ =>
    split
    · exact steady_refuse ..
    · next e bound =>
      split
      · exact steady_refuse ..
      · next passed =>
        have off := Part.off_of_enableRefusal passed
        have entered : Steady p (p.forChannels e.ascending (fun c q => q.enterCapture c)) ∧
            (p.forChannels e.ascending (fun c q => q.enterCapture c)).held = false ∧
            (p.forChannels e.ascending (fun c q => q.enterCapture c)).binding = p.binding ∧
            ∀ c ∈ e.chans, (p.forChannels e.ascending (fun c q => q.enterCapture c)).stateOf c = .off ∨
              (p.forChannels e.ascending (fun c q => q.enterCapture c)).stateOf c = .capture := by
          refine Part.forChannels_keeps_mem (fun q => Steady p q ∧ q.held = false ∧ q.binding = p.binding ∧
            ∀ c ∈ e.chans, q.stateOf c = .off ∨ q.stateOf c = .capture) _ _ p ?_
            ⟨Steady.refl p, released, rfl, fun c hc => Or.inl (off c hc)⟩
          rintro c hc q ⟨steady, held, binding, states⟩
          have mine := SlotEntry.mem_ascending.mp hc
          have only := OnlyAt.enterCapture q c
          have named : c ∈ q.mapChannels .a ++ q.mapChannels .b :=
            Part.mem_mapChannels_both.mpr ⟨m, k, e, by unfold Part.entryAt; rw [binding]; exact bound, mine⟩
          refine ⟨steady.trans (steady_enterCapture q c held named (states c mine)), only.held.trans held,
            only.binding.trans binding, fun d hd => ?_⟩
          by_cases same : c = d
          · subst same; exact Or.inr (Part.enter_stateOf ..)
          · rw [only.stateOf same]; exact states d hd
        exact entered.1.trans (steady_done _ l _ (Nat.zero_le _))

theorem steady_disableReq (p : Part) (l : Link) (payload : List Byte) : Steady p (p.disableReq l payload) := by
  refine steady_onMotion p l _ _ fun m => ?_
  split
  · exact steady_refuse ..
  · split
    · exact steady_refuse ..
    · exact (Steady.forChannels (fun c q => q.stop c) (fun c q => steady_stop q c) _ p).trans (steady_done _ l _ (Nat.zero_le _))

/-! ### Batches -/

theorem steady_appendRecords (p : Part) (m : Motion) (rs : List Record) (fits : (p.openRecords m).length + rs.length ≤ 8) :
    Steady p (p.appendRecords m rs) := by
  refine Steady.batch p m _ fun all h => ?_
  split at h
  · cases h
  · next some =>
    cases h
    have pos : 0 < (p.openRecords m ++ rs).length := List.length_pos_iff.mpr (by simpa using some)
    rw [List.length_append] at pos ⊢
    exact ⟨pos, fits⟩

theorem steady_sendTimes (p : Part) (l : Link) (k : EventKind) (n : ℕ) : Steady p (p.sendTimes l k n) := by
  induction n generalizing p with
  | zero => exact Steady.refl p
  | succ n ih => exact (steady_send p l k none .none).trans (ih _)

/-- A setpoint given to an active channel. -/
theorem steady_giveSetpoint (p : Part) (c : Channel) (x : Setpoint) (active : (p.stateOf c).active = true) :
    Steady p (p.modCtx c (fun y => { y with setpoint := some x })) := by
  refine (OnlyAt.modCtx p c _).steady_of_state ?_ rfl (fun off isOff => ?_) ?_ ?_
  · simp [Part.stateOf]
  · obtain ⟨legs, onTimes, waiting, -⟩ := off (by simpa [Part.stateOf] using isOff)
    refine ⟨legs, onTimes, waiting, fun inactive => ?_⟩
    simp only [Part.stateOf, Part.modCtx_ctx, Six.get_set_same] at inactive active
    rw [active] at inactive; cases inactive
  · rw [Part.modCtx_ctx, Six.get_set_same]; exact id
  · unfold Part.offsetsAt; rw [Part.modCtx_ctx, Six.get_set_same]; exact id

theorem foldl_keeps {α β : Type} (I : α → Prop) (f : α → β → α) (xs : List β) (a : α) (h : ∀ a x, I a → I (f a x)) (ha : I a) :
    I (xs.foldl f a) := by
  induction xs generalizing a with
  | nil => exact ha
  | cons x xs ih => exact ih _ (h a x ha)

theorem steady_deliverMember (i q : ℤ) (peak : Bool) (acc : Part × List Channel) (x : Member × AngleBlock) :
    Steady acc.1 (deliverMember i q peak acc x).1 := by
  unfold deliverMember
  split
  · next active => exact steady_giveSetpoint _ _ _ active
  · exact Steady.refl _

theorem steady_deliverRecord (map : SlotMap) (acc : Part × List Channel) (r : Record × Bool) :
    Steady acc.1 (deliverRecord map acc r).1 := by
  unfold deliverRecord
  split
  · exact Steady.refl _
  · split
    · exact Steady.refl _
    · split
      · exact foldl_keeps (fun a : Part × List Channel => Steady acc.1 a.1) _ _ acc
          (fun a x h => h.trans (steady_deliverMember _ _ _ a x)) (Steady.refl _)
      · exact Steady.refl _

theorem steady_deliver (p : Part) (m : Motion) : Steady p (p.deliver m).1 := by
  have reached := (steady_sendTimes p m.link .prefixDropped (droppedPeaks (p.openRecords m))).trans
    (foldl_keeps (fun a : Part × List Channel => Steady (p.sendTimes m.link .prefixDropped (droppedPeaks (p.openRecords m))) a.1)
      (deliverRecord (p.binding.maps.get m)) (markRecords false (p.openRecords m)) (_, [])
      (fun a r h => h.trans (steady_deliverRecord _ a r)) (Steady.refl _))
  exact (reached.trans (steady_noBatch _ m)).trans (Steady.bindingUnit _ _ (by exact id))

theorem steady_setReq (p : Part) (l : Link) (endMark : Bool) (bytes : List Byte) : Steady p (p.setReq l endMark bytes) := by
  refine steady_onMotion p l _ _ fun m => ?_
  split
  · exact steady_refuse ..
  · next rs _ =>
    split
    · exact steady_refuse ..
    · split
      · exact (steady_loseBatch p m).trans (steady_refuse ..)
      · next fits =>
        have appended := steady_appendRecords p m rs (not_lt.mp fits)
        dsimp only
        split
        · exact (appended.trans (steady_deliver ..)).trans (steady_done _ _ _ (by simp))
        · exact appended.trans (steady_done _ _ _ (by simp))

theorem steady_discardReq (p : Part) (l : Link) (payload : List Byte) : Steady p (p.discardReq l payload) := by
  refine steady_onMotion p l _ _ fun m => ?_
  split
  · exact (steady_noBatch p m).trans (steady_done _ l _ (by simp))
  · exact steady_refuse ..

theorem steady_anySetReq (p : Part) (l : Link) (payload : List Byte) : Steady p (p.anySetReq l payload) := by
  unfold Part.anySetReq
  split
  · exact steady_setReq ..
  · exact steady_onMotion p l _ _ fun m => steady_refuse ..

/-! ### Parameters -/

theorem steady_paramReq {α : Type} (p : Part) (l : Link) (chByte : Byte) (fields : Option α) (store : Channel → α → Part → Part)
    (h : ∀ c g, Steady p (store c g p)) : Steady p (p.paramReq l chByte fields store) := by
  refine steady_onMotion p l _ _ fun m => ?_
  split
  · split
    · exact h _ _
    · exact steady_refuse ..
  · exact steady_refuse ..

theorem steady_paramReplied (p : Part) (l : Link) (c : Channel) (group : ℕ) {fields more : List Byte}
    (h : fields.length + more.length ≤ 56) : Steady p (p.paramReplied l c group fields more) := by
  refine steady_done p l _ ?_
  simp only [List.length_append, put8_length]
  omega

/-- The parameters of a channel changed, its state, its setpoint and Ro left as they are. -/
theorem steady_setGroup (p : Part) (c : Channel) (f : Context → Context)
    (kept : ∀ x, (f x).state = x.state ∧ (f x).setpoint = x.setpoint ∧ (f x).senseG = x.senseG)
    (limits : (p.ctx.get c).limitsOrdered → (f (p.ctx.get c)).limitsOrdered) : Steady p (p.modCtx c f) := by
  obtain ⟨state, setpoint, senseG⟩ := kept (p.ctx.get c)
  refine (OnlyAt.modCtx p c f).steady_of_state ?_ rfl ?_ ?_ ?_
  · simpa [Part.stateOf] using state
  · simp [Part.offAt, Part.stateOf, state, setpoint]
  · rw [Part.modCtx_ctx, Six.get_set_same]; exact limits
  · simp [Part.offsetsAt, senseG]

theorem narrow_offset_range {old new : ℕ} {off : ℤ} (h : (off - 2048).natAbs ≤ old) :
    ((if new < old then clampOffset new off else off) - 2048).natAbs ≤ new := by
  split
  · exact clampOffset_range _ _
  · omega

theorem Sense.narrow_eq (u : Sense) (old new : ℕ) :
    u.narrow old new = { u with offA := if new < old then clampOffset new u.offA else u.offA
                                offB := if new < old then clampOffset new u.offB else u.offB } := by
  unfold Sense.narrow
  split <;> rfl

theorem steady_storeSense (p : Part) (l : Link) (c : Channel) (g : SenseGroup) : Steady p (Part.storeSense l c g p) := by
  unfold Part.storeSense
  split
  · exact steady_refuse ..
  · refine Steady.trans ?_ (steady_paramReplied _ l c 1 (fields := g.bytes) (more := []) (by simp [SenseGroup.bytes]))
    refine ((OnlyAt.modSense ..).trans (OnlyAt.modCtx ..)).steady_of_state ?_ rfl ?_ ?_ ?_
    · simp [Part.stateOf]
    · simp [Part.offAt, Part.stateOf]
    · rw [Part.modCtx_ctx, Six.get_set_same]; exact id
    · rintro ⟨a, b⟩
      simp only [Part.offsetsAt, Part.modCtx_sense, Part.modSense_sense, Part.modCtx_ctx, Part.modSense_ctx, Six.get_set_same,
        Sense.narrow_eq]
      exact ⟨narrow_offset_range a, narrow_offset_range b⟩

/-- A group stored beside the state, the setpoint, Ro and the limits, and its reply. -/
theorem steady_setReplied (p : Part) (l : Link) (c : Channel) (group : ℕ) (f : Context → Context) (fields : List Byte)
    (kept : ∀ x, (f x).state = x.state ∧ (f x).setpoint = x.setpoint ∧ (f x).senseG = x.senseG)
    (limits : ∀ x, x.limitsOrdered → (f x).limitsOrdered) (fits : fields.length ≤ 56) :
    Steady p ((p.modCtx c f).paramReplied l c group fields []) :=
  (steady_setGroup p c f kept (limits _)).trans (steady_paramReplied _ l c group (by simpa using fits))

theorem steady_storeTrack (p : Part) (l : Link) (c : Channel) (g : TrackGroup) : Steady p (Part.storeTrack l c g p) :=
  steady_setReplied p l c 2 _ g.bytes (by exact fun _ => ⟨rfl, rfl, rfl⟩) (by exact fun _ => id) (by simp [TrackGroup.bytes])

theorem steady_storeLoop (p : Part) (l : Link) (c : Channel) (g : LoopGroup) : Steady p (Part.storeLoop l c g p) :=
  steady_setReplied p l c 3 _ g.bytes (by exact fun _ => ⟨rfl, rfl, rfl⟩) (by exact fun _ => id) (by simp [LoopGroup.bytes])

theorem steady_storeProtect (p : Part) (l : Link) (c : Channel) (g : ProtectGroup) : Steady p (Part.storeProtect l c g p) :=
  steady_setReplied p l c 5 _ g.bytes (by exact fun _ => ⟨rfl, rfl, rfl⟩) (by exact fun _ => id) (by simp [ProtectGroup.bytes])

theorem steady_storeHold (p : Part) (l : Link) (c : Channel) (g : HoldGroup) : Steady p (Part.storeHold l c g p) :=
  steady_setReplied p l c 6 _ g.bytes (by exact fun _ => ⟨rfl, rfl, rfl⟩) (by exact fun _ => id) (by simp [HoldGroup.bytes])

/-- The clamp order of R170 leaves the limits in order, whatever was written. -/
theorem Context.reclamp_limitsOrdered (x : Context) (g : LimitsGroup) (ceilings : x.icontCeil ≤ x.ipkCeil) :
    (x.reclamp g).limitsOrdered := by
  simp only [Context.limitsOrdered, Context.reclamp, limitsClampOrder]
  omega

theorem steady_storeLimits (p : Part) (l : Link) (c : Channel) (g : LimitsGroup) : Steady p (Part.storeLimits l c g p) := by
  unfold Part.storeLimits
  dsimp only
  refine (steady_setGroup p c _ (by exact fun _ => ⟨rfl, rfl, rfl⟩) fun ordered => ?_).trans (steady_paramReplied _ l c 4 ?_)
  · obtain ⟨-, -, -, ceilings, -⟩ := ordered
    exact Context.reclamp_limitsOrdered _ g ceilings
  · simp [LimitsGroup.bytes]

theorem steady_anyParamReq (p : Part) (l : Link) (payload : List Byte) : Steady p (p.anyParamReq l payload) := by
  have refused : Steady p (p.onMotion l .param (fun _ p => p.refuse l .param .badValue)) :=
    steady_onMotion p l _ _ fun _ => steady_refuse ..
  unfold Part.anyParamReq
  split
  · split_ifs
    · exact steady_paramReq p l _ _ _ (steady_storeSense p l)
    · exact steady_paramReq p l _ _ _ (steady_storeTrack p l)
    · exact steady_paramReq p l _ _ _ (steady_storeLoop p l)
    · exact steady_paramReq p l _ _ _ (steady_storeLimits p l)
    · exact steady_paramReq p l _ _ _ (steady_storeProtect p l)
    · exact steady_paramReq p l _ _ _ (steady_storeHold p l)
    · exact refused
  · exact refused

theorem ceilingFields_ordered {payload : List Byte} {c : Channel} {icont ipk : ℕ} (h : ceilingFields payload = some (c, icont, ipk)) :
    icont ≤ ipk := by
  unfold ceilingFields at h
  split at h
  · obtain ⟨ch, -, e⟩ := Option.map_eq_some_iff.mp h
    cases e
    unfold clampN
    omega
  · cases h

theorem steady_ceilingReq (p : Part) (l : Link) (payload : List Byte) : Steady p (p.ceilingReq l payload) := by
  refine steady_onSupervisor p l _ _ ?_
  split
  · exact steady_refuse ..
  · next c icont ipk fields =>
    dsimp only
    refine (steady_setGroup p c _ (by exact fun _ => ⟨rfl, rfl, rfl⟩) fun _ => ?_).trans (steady_done _ l _ ?_)
    · exact Context.reclamp_limitsOrdered _ _ (ceilingFields_ordered fields)
    · simp [LimitsGroup.bytes]

/-! ### Settings of Link S -/

theorem timingFields_sound {payload : List Byte} {t : TimingFields} (h : timingFields payload = some t) :
    periodSound t.period ∧ t.blank ≤ 600 ∧ 1 ≤ t.divider ∧ t.divider ≤ 16 := by
  unfold timingFields at h
  split at h
  · cases h
    simp only [periodSound, clampN, Config.periodMin, Config.periodMax, Config.blankMax, Config.dividerMax]
    omega
  · cases h

theorem steady_timingReq (p : Part) (l : Link) (payload : List Byte) : Steady p (p.timingReq l payload) := by
  refine steady_onSupervisor p l _ _ ?_
  split
  · exact steady_refuse ..
  · next t fields =>
    obtain ⟨period, blank, divLow, divHigh⟩ := timingFields_sound fields
    dsimp only
    split
    · exact steady_refuse ..
    · refine (Steady.carrier p _ (by rfl) ?_).trans (steady_done _ l _ (by simp))
      rintro ⟨⟨before, pending⟩, -, tables⟩
      refine ⟨⟨before, fun n e => ?_⟩, ⟨blank, divLow, divHigh, divLow⟩, tables⟩
      dsimp only at e
      split at e
      · cases e; exact period
      · exact pending n e

/-- A slot table is one to one when no channel stands in two of its slots. -/
theorem tableSound_iff (t : Six Channel) : tableSound t ↔ Function.Injective t.get := by
  have ofFn : t.toList = List.ofFn t.get := by simp [List.ofFn_succ]; rfl
  rw [tableSound, ofFn, List.nodup_ofFn]

theorem mem_table {t : Six Channel} (sound : tableSound t) (c : Channel) : ∃ j, t.get j = c :=
  Finite.surjective_of_injective ((tableSound_iff t).mp sound) c

/-- The carrier slot of a channel in a one-to-one table, as a search finds it. -/
theorem find_slot {t : Six Channel} (sound : tableSound t) {j : CarrierSlot} {c : Channel} (at_j : t.get j = c) :
    channels.find? (fun k => t.get k = c) = some j := by
  cases found : channels.find? (fun k => t.get k = c) with
  | none => exact absurd at_j (by simpa using List.find?_eq_none.mp found j (mem_channels j))
  | some k =>
    have at_k : t.get k = c := by simpa using List.find?_some found
    rw [(tableSound_iff t).mp sound (at_k.trans at_j.symm)]

theorem swapInto_eq {t : Six Channel} (sound : tableSound t) {c : Channel} {j : CarrierSlot} (k : CarrierSlot) (at_j : t.get j = c) :
    swapInto t c k = (t.set j (t.get k)).set k c := by
  unfold swapInto
  rw [find_slot sound at_j]

theorem swapInto_sound {t : Six Channel} (sound : tableSound t) (c : Channel) (k : CarrierSlot) : tableSound (swapInto t c k) := by
  obtain ⟨j, at_j⟩ := mem_table sound c
  have swapped : (swapInto t c k).get = t.get ∘ Equiv.swap j k := by
    funext i
    rw [swapInto_eq sound k at_j, Six.get_set, Six.get_set, Function.comp_apply, Equiv.swap_apply_def]
    by_cases ik : k = i
    · subst ik
      by_cases kj : k = j <;> simp [kj, at_j]
    · by_cases ij : j = i
      · subst ij; simp [ik]
      · simp [ik, ij, Ne.symm ik, Ne.symm ij]
  rw [tableSound_iff, swapped]
  exact ((tableSound_iff t).mp sound).comp (Equiv.injective _)

theorem Carrier.settingsSound.comingTable {k : Carrier} (sound : k.settingsSound) : tableSound k.comingTable := by
  obtain ⟨-, -, table, pending⟩ := sound
  unfold Carrier.comingTable
  cases e : k.pendingTable with
  | none => exact table
  | some t => exact pending t e

theorem steady_slotReq (p : Part) (l : Link) (payload : List Byte) : Steady p (p.slotReq l payload) := by
  refine steady_onSupervisor p l _ _ ?_
  split
  · exact steady_refuse ..
  · next c k _ =>
    dsimp only
    split
    · exact steady_refuse ..
    · refine (Steady.carrier p _ (by rfl) fun sound => ?_).trans (steady_done _ l _ ?_)
      · have coming := Carrier.settingsSound.comingTable sound
        obtain ⟨periods, numbers, table, -⟩ := sound
        refine ⟨periods, numbers, table, fun t e => ?_⟩
        cases e
        exact swapInto_sound coming c k
      · simp [Six.toList]

theorem steady_busReq (p : Part) (l : Link) (payload : List Byte) : Steady p (p.busReq l payload) := by
  refine steady_onSupervisor p l _ _ ?_
  split
  · exact steady_refuse ..
  · exact (Steady.bus p _ (by exact id)).trans (steady_done _ l _ (by simp))

theorem steady_budgetReq (p : Part) (l : Link) (payload : List Byte) : Steady p (p.budgetReq l payload) := by
  refine steady_onSupervisor p l _ _ ?_
  split
  · exact steady_refuse ..
  · exact (Steady.bus p _ (by exact id)).trans (steady_done _ l _ (by simp))

theorem storeClasses_scale (es : List ClassEntry) (b : Bus) : (es.foldl Bus.storeClass b).scale = b.scale :=
  foldl_keeps (fun x : Bus => x.scale = b.scale) Bus.storeClass es b (fun _ _ h => h) rfl

theorem steady_classReq (p : Part) (l : Link) (payload : List Byte) : Steady p (p.classReq l payload) := by
  refine steady_onSupervisor p l _ _ ?_
  split
  · exact steady_refuse ..
  · split
    · exact steady_refuse ..
    · exact (Steady.bus p _ (by rw [storeClasses_scale]; exact id)).trans (steady_done _ l _ (by simp [channels]))

theorem torqueBytes_length (p : Part) : p.torqueBytes.length = 3 := rfl

theorem steady_withdrawReq (p : Part) (l : Link) (payload : List Byte) : Steady p (p.withdrawReq l payload) := by
  refine steady_onSupervisor p l _ _ ?_
  split
  · exact steady_refuse ..
  · exact (steady_withdrawChannels p _).trans (steady_done _ l _ (by rw [torqueBytes_length]; omega))

theorem steady_restoreReq (p : Part) (l : Link) (payload : List Byte) : Steady p (p.restoreReq l payload) := by
  refine steady_onSupervisor p l _ _ ?_
  split
  · exact steady_refuse ..
  · exact (steady_restoreChannels p _).trans (steady_done _ l _ (by rw [torqueBytes_length]; omega))

theorem steady_edgeClearReq (p : Part) (l : Link) (payload : List Byte) : Steady p (p.edgeClearReq l payload) := by
  refine steady_onSupervisor p l _ _ ?_
  split
  · exact steady_refuse ..
  · split
    · exact steady_refuse ..
    · next high =>
      exact (steady_clearEdge p (by simpa using high)).trans (steady_done _ l _ (by rw [torqueBytes_length]; omega))

theorem steady_revokeReq (p : Part) (l : Link) (payload : List Byte) : Steady p (p.revokeReq l payload) := by
  refine steady_onSupervisor p l _ _ ?_
  split
  · exact steady_refuse ..
  · exact (Steady.forChannels (fun c q => q.revokeOne c) (fun c q => steady_revokeOne q c) _ p).trans
      (steady_done _ l _ (by rw [holderBytes_length]; omega))

theorem steady_nopReq (p : Part) (l : Link) : Steady p (p.nopReq l) := steady_done p l _ (Nat.zero_le _)

/-! ### Every command -/

theorem steady_judgeKind (p : Part) (l : Link) (k : Kind) (payload : List Byte) (released : p.held = false) :
    Steady p (p.judgeKind l k payload) := by
  cases k with
  | nop => exact steady_nopReq p l
  | linkReset => exact steady_linkResetReq p l payload
  | status => exact steady_statusReq p l payload
  | events => exact steady_eventsReq p l payload
  | read => exact steady_readReq p l payload
  | ack => exact steady_ackReq p l payload
  | claim => exact steady_claimReq p l payload
  | release => exact steady_releaseReq p l payload
  | map => exact steady_mapReq p l payload
  | unmap => exact steady_unmapReq p l payload
  | param => exact steady_anyParamReq p l payload
  | enable => exact steady_enableReq p l payload released
  | disable => exact steady_disableReq p l payload
  | set => exact steady_anySetReq p l payload
  | discard => exact steady_discardReq p l payload
  | budget => exact steady_budgetReq p l payload
  | bus => exact steady_busReq p l payload
  | classes => exact steady_classReq p l payload
  | ceiling => exact steady_ceilingReq p l payload
  | timing => exact steady_timingReq p l payload
  | slot => exact steady_slotReq p l payload
  | withdraw => exact steady_withdrawReq p l payload
  | restore => exact steady_restoreReq p l payload
  | edgeClear => exact steady_edgeClearReq p l payload
  | revoke => exact steady_revokeReq p l payload

theorem steady_frameEnd (p : Part) (l : Link) (bytes : List Byte) (whole : Bool) : Steady p (p.frameEnd l bytes whole) := by
  refine steady_takeFrame p l _ _ fun released => ?_
  split
  · exact steady_rejectFrame ..
  · exact steady_judgeKind p l _ _ released

/-- The END mark is bit 0 of the flag byte. -/
theorem setFlagByte_endMark (i : BitVec 7) (b : BitVec 1) : (setFlagByte i b).toNat % 2 = b.toNat := by
  unfold setFlagByte
  have even : i.toNat * 2 ^ 1 % 2 ^ 1 = 0 := Nat.mul_mod_left ..
  have small : b.toNat % 2 ^ 1 = b.toNat := Nat.mod_eq_of_lt b.isLt
  rw [BitVec.toNat_append, Nat.shiftLeft_eq, Nat.or_mod_two_pow (n := 1), even, small, Nat.zero_or]

/-- A request command is the judgement of its kind and payload. -/
theorem effectOf_request {c : Instr} {l : Link} {k : Kind} {payload : List Byte} (h : requestOf c = some (l, k, payload)) (p : Part) :
    effectOf c p = (p.request l payload (fun p => p.judgeKind l k payload), []) := by
  cases c <;> simp only [requestOf, Option.some.injEq, Prod.mk.injEq, reduceCtorEq] at h <;> obtain ⟨rfl, rfl, rfl⟩ := h
  case set l i r =>
    have endMark : (setFlagByte i 0).toNat % 2 = 0 := setFlagByte_endMark i 0
    show _ = (p.request l (setFlagByte i 0 :: r) (fun p => p.setReq l ((setFlagByte i 0).toNat % 2 = 1) r), [])
    rw [endMark]
    rfl
  case setEnd l i r =>
    have endMark : (setFlagByte i 1).toNat % 2 = 1 := setFlagByte_endMark i 1
    show _ = (p.request l (setFlagByte i 1 :: r) (fun p => p.setReq l ((setFlagByte i 1).toNat % 2 = 1) r), [])
    rw [endMark]
    rfl
  all_goals rfl

/-- What every command does to the part keeps the properties. -/
theorem steady_effectOf (c : Instr) (p : Part) : Steady p (effectOf c p).1 := by
  cases request : requestOf c with
  | some x =>
    obtain ⟨l, k, payload⟩ := x
    rw [effectOf_request request]
    exact steady_request p l payload (fun p => p.judgeKind l k payload) (steady_judgeKind p l k payload)
  | none =>
    cases c with
    | resetEnd t b l => exact steady_resetEnd p t b l
    | frameMark raw n => exact steady_frameMarkOp p raw n
    | brkOnTimeEnd => exact steady_brkOnTimeEnd p
    | valley c a b o => exact steady_valleyOp p c a b o
    | computationComplete c => exact steady_complete p c
    | legEdge c l => exact steady_legEdge p c l
    | bfltActive c => exact steady_bfltActive p c
    | bfltInactive c => exact steady_bfltInactive p c
    | tenFall => exact steady_tenFall p
    | tenRise => exact steady_tenRise p
    | frameStart l => exact steady_frameStart p l
    | frameError l b w => exact steady_frameEnd p l b w
    | ignoredFrameEnd l => exact steady_ignoredFrameEnd p l
    | fullReset | busUv | chopperBlocked | chopperRestored | overcurrent | sampleLoss | captureEnd | offsetStep | recapture
    | peakExhausted | holdEntry | setpointTimeout => exact Steady.refl p
    | _ => cases request

/-! ### The reset -/

theorem Part.afterReset_items (held : Bool) (c : Channel) :
    (Part.afterReset held).ctx.get c = .afterReset ∧ (Part.afterReset held).sense.get c = .afterReset ∧
      (Part.afterReset held).carrier.drives.get c = .afterReset ∧ (Part.afterReset held).causesOf c = .empty ∧
      (Part.afterReset held).bus.scale.get c = 4096 ∧ (Part.afterReset held).torque.withdrawn.get c = false := by
  refine ⟨?_, ?_, ?_, ?_, ?_, ?_⟩ <;> exact Six.get_all _ c

theorem Part.afterReset_stateOf (held : Bool) (c : Channel) : (Part.afterReset held).stateOf c = .off :=
  congrArg Context.state (Part.afterReset_items held c).1

theorem afterReset_bridgeOffIsOff (held : Bool) : (Part.afterReset held).bridgeOffIsOff := by
  refine ⟨fun _ c => by rw [Part.afterReset_stateOf]; rfl, fun c _ => ?_⟩
  obtain ⟨ctx, -, drive, -⟩ := Part.afterReset_items held c
  rw [ctx, drive]
  exact ⟨rfl, rfl, rfl, fun _ => rfl⟩

theorem afterReset_link (held : Bool) (l : Link) : (Part.afterReset held).links.get l = .afterReset := Three.get_all _ l

theorem afterReset_queuesSound (held : Bool) : (Part.afterReset held).queuesSound := by
  intro l
  rw [afterReset_link]
  exact ⟨Nat.zero_le _, fun _ h => (nomatch h), rfl⟩

theorem Reply.afterReset_eq : Reply.afterReset = .form .empty [] := by decide +kernel

theorem afterReset_repliesAndBatchesSound (held : Bool) : (Part.afterReset held).repliesAndBatchesSound := by
  refine ⟨fun l => ?_, fun m rs h => ?_⟩
  · rw [afterReset_link]
    show Reply.afterReset.sound
    rw [Reply.afterReset_eq]
    exact Reply.form_sound _ (Nat.zero_le _)
  · rw [show (Part.afterReset held).batches.get m = none from Two.get_all _ m] at h
    cases h

theorem afterReset_limitsOrdered (held : Bool) : (Part.afterReset held).limitsOrdered := by
  intro c
  rw [(Part.afterReset_items held c).1]
  unfold Context.limitsOrdered
  decide

theorem afterReset_settingsSound (held : Bool) : (Part.afterReset held).settingsSound := by
  rw [Part.settingsSound_iff]
  have carrier : Carrier.afterReset.settingsSound :=
    ⟨⟨by unfold periodSound; decide, fun _ h => nomatch h⟩, by decide, by unfold tableSound; decide, fun _ h => nomatch h⟩
  refine ⟨carrier, fun c => ?_, fun c => ?_⟩
  · rw [(Part.afterReset_items held c).2.2.2.2.1]
  · obtain ⟨ctx, sense, -⟩ := Part.afterReset_items held c
    unfold Part.offsetsAt
    rw [ctx, sense]
    decide

theorem afterReset_bindingSound (held : Bool) : (Part.afterReset held).bindingSound := by
  have empty (m : Motion) : (Part.afterReset held).mapChannels m = [] := by cases m <;> rfl
  refine ⟨by rw [empty, empty]; exact List.nodup_nil, fun m c named => ?_, fun c active => ?_⟩
  · rw [empty] at named; cases named
  · rw [Part.afterReset_stateOf] at active; cases active

theorem afterReset_causesSound (held : Bool) : (Part.afterReset held).causesSound := by
  intro c
  rw [Part.afterReset_stateOf, (Part.afterReset_items held c).2.2.2.1]
  exact ⟨fun h => (nomatch h), fun h => absurd rfl h⟩

theorem afterReset_torqueSound (held : Bool) : (Part.afterReset held).torqueSound := by
  refine ⟨fun low => (nomatch low), fun c => ?_⟩
  rw [Part.afterReset_stateOf, (Part.afterReset_items held c).2.2.2.2.2]
  exact iff_of_false (fun h => nomatch h) (by rintro (h | h) <;> cases h)

/-- Settles O55: a part in the values of a full reset has every property, whether RESET is still low or not. -/
theorem resetHasTheProperties : Obligations.ResetHasTheProperties := by
  have every (held : Bool) (p : Part) (h : p = .afterReset held) : p.bridgeOffIsOff ∧ p.queuesSound ∧ p.repliesAndBatchesSound ∧
      p.limitsOrdered ∧ p.settingsSound ∧ p.bindingSound ∧ p.causesSound ∧ p.torqueSound :=
    h ▸ ⟨afterReset_bridgeOffIsOff held, afterReset_queuesSound held, afterReset_repliesAndBatchesSound held,
      afterReset_limitsOrdered held, afterReset_settingsSound held, afterReset_bindingSound held, afterReset_causesSound held,
      afterReset_torqueSound held⟩
  rintro p (h | h)
  · exact every false p h
  · exact every true p h

/-! ### Every step -/

/-- A property that the reset has and that every steady change keeps is kept by every step. -/
theorem step_keeps_of_steady (I : Part → Prop) (reset : I (.afterReset true)) (keeps : ∀ p q, Steady p q → I p → I q) (s t : State)
    (h : I s.part) (e : step s = .next t) : I t.part :=
  step_keeps I reset (fun d p => keeps p _ (steady_take d p)) (fun c p => keeps p _ (steady_effectOf c p)) s t h e

/-- Settles O56: only RUN and HOLD drive the legs, and leaving them clears what they drove. -/
theorem bridgeOffStaysOff : Obligations.BridgeOffStaysOff :=
  step_keeps_of_steady _ (afterReset_bridgeOffIsOff true) fun _ _ h => h.bridge

/-- Settles O57: every event is offered to a queue, every reply is formed whole and fits, and every batch is judged by its length. -/
theorem linksStaySound : Obligations.LinksStaySound :=
  ⟨step_keeps_of_steady _ (afterReset_queuesSound true) fun _ _ h => h.queues,
    step_keeps_of_steady _ (afterReset_repliesAndBatchesSound true) fun _ _ h => h.replies⟩

/-- Settles O58: what writes a setting clamps it, and a SLOT swaps two channels. -/
theorem settingsStayInRange : Obligations.SettingsStayInRange :=
  ⟨step_keeps_of_steady _ (afterReset_limitsOrdered true) fun _ _ h => h.limits,
    step_keeps_of_steady _ (afterReset_settingsSound true) fun _ _ h => h.settings⟩

/-- Settles O59: the checks of MAP, UNMAP, CLAIM, RELEASE and ENABLE, and the order of a revocation. -/
theorem bindingStaysSound : Obligations.BindingStaysSound :=
  step_keeps_of_steady _ (afterReset_bindingSound true) fun _ _ h => h.binding

/-- Settles O60: a raise takes the channel to FAULT, an ACK takes it out with its last cause, and the torque flags move together with
SAFE_OFF. -/
theorem statesFollowCausesAndTorqueFlags : Obligations.StatesFollowCausesAndTorqueFlags :=
  ⟨step_keeps_of_steady _ (afterReset_causesSound true) fun _ _ h => h.causes,
    step_keeps_of_steady _ (afterReset_torqueSound true) fun _ _ h => h.torque⟩

end Sys2Proof.Machine

/-! SUPPORT. The machine and its agenda, the reset, the arithmetic of R1 and the carrier unit: the statements about them. -/

namespace Sys2Proof.Machine

/-! ### The machine and its agenda -/

/-- Settles O1: a step of a machine whose queue is not empty is `exec` of the first command, by definition. -/
theorem stepTakesFrontCommand : Obligations.StepTakesFrontCommand := fun _ _ _ => rfl

theorem step_of_no_command {s : State} (h : s.pending = []) : step s = .next { s with part := s.part.settle s.due, due := [] } := by
  rw [step, h]

/-- A command that can come first at the instant of its frame mark lets a waiting bus unit's operation wait. -/
theorem exec_of_comesAtMark {s : State} {c : Instr} (h : comesAtMark s c) : exec c s = .next (s.act (effectOf c)) := by
  cases c with
  | fullReset | frameMark => exact absurd h id
  | valley c a b o => exact congrArg _ (if_pos h)
  | busUv | chopperBlocked | chopperRestored | overcurrent | sampleLoss | captureEnd | offsetStep | recapture | peakExhausted
  | holdEntry | setpointTimeout => cases h
  | _ => rfl

/-- Any other command that is no row of another step finds all due steps taken. -/
theorem exec_of_not_comesAtMark {s : State} {c : Instr} (h : ¬comesAtMark s c) (row : dueRowOf c = none) (notReset : c ≠ .fullReset) :
    exec c s = .next (s.actAfterAll (effectOf c)) := by
  cases c with
  | fullReset => exact absurd rfl notReset
  | frameMark => rfl
  | valley c a b o => exact congrArg _ (if_neg h)
  | busUv | chopperBlocked | chopperRestored | overcurrent | sampleLoss | captureEnd | offsetStep | recapture | peakExhausted
  | holdEntry | setpointTimeout => cases row
  | _ => exact absurd row h

theorem row_of_comesAtMark {s : State} {c : Instr} (h : comesAtMark s c) : dueRowOf c = none ∧ c ≠ .fullReset := by
  cases c with
  | fullReset => exact absurd h id
  | valley => exact ⟨rfl, nofun⟩
  | frameMark => exact absurd h id
  | _ => exact ⟨h, nofun⟩

/-- A command that no waiting operation lets come first acts on the part after all due steps. -/
theorem exec_settled {s : State} {c : Instr} (row : dueRowOf c = none) (notReset : c ≠ .fullReset)
    (h : (∀ ds n raw, s.due ≠ ds ++ [.busOperation (n + 1) raw]) ∨ ¬comesAtMark s c) :
    exec c s = .next (s.actAfterAll (effectOf c)) := by
  by_cases mark : comesAtMark s c
  · rw [exec_of_comesAtMark mark, State.act_free _ _ (h.resolve_right (not_not_intro mark))]
  · exact exec_of_not_comesAtMark mark row notReset

/-- Settles O2: a command acts on the part with the due steps taken, and a waiting bus operation is due again after it. -/
theorem dueStepsComeFirst : Obligations.DueStepsComeFirst := by
  refine ⟨fun _ => step_of_no_command, fun s queue due => ?_, fun c s row notReset h => ?_, fun c s ds n raw mark due => ?_,
    fun p d ds => ⟨rfl, p.settle_cons d ds⟩, fun p n raw => ⟨rfl, rfl⟩⟩
  · rw [step_of_no_command queue, due, Part.settle_nil, ← due]
  · rw [exec_settled row notReset h, exec_idle rfl row notReset]
    rfl
  · obtain ⟨row, notReset⟩ := row_of_comesAtMark mark
    refine ⟨_, _, exec_idle rfl row notReset, ?_⟩
    rw [exec_of_comesAtMark mark, State.act_waiting _ _ due]

/-! ### Reset -/

/-- Settles O3: each block is read in the values of a full reset. -/
theorem fullResetValues : Obligations.FullResetValues := by
  refine fun s => ⟨_, rfl, rfl, rfl, rfl, fun l => ?_, fun m => ?_, fun c => ?_, fun c => ?_, rfl, fun c => ?_, fun c => ?_, rfl,
    fun c => ?_, rfl⟩
  · rw [afterReset_link, ← Reply.afterReset_eq]; rfl
  · cases m <;> exact ⟨rfl, rfl, Four.get_all _⟩
  · exact Six.get_all _ c
  · exact (Part.afterReset_items true c).1
  · exact (Part.afterReset_items true c).2.2.1
  · exact (Part.afterReset_items true c).2.1
  · obtain ⟨-, -, -, causes, -, withdrawn⟩ := Part.afterReset_items true c
    exact ⟨causes, fun l => by cases l <;> exact Six.get_all _ c, withdrawn⟩

/-- While RESET is low, no command but the reset's own has an effect on the part. -/
theorem effectOf_afterReset (c : Instr) (notEnd : ∀ t b l, c ≠ .resetEnd t b l) :
    effectOf c (.afterReset true) = (.afterReset true, []) := by
  cases c with
  | resetEnd t b l => exact absurd rfl (notEnd t b l)
  | legEdge ch leg =>
    have off : ((Part.afterReset true).stateOf ch).bridgeOn ≠ true := by rw [Part.afterReset_stateOf]; decide
    exact congrArg (·, []) (if_neg off)
  | computationComplete ch =>
    have none : ((Part.afterReset true).ctx.get ch).flight = none := by rw [(Part.afterReset_items true ch).1]; rfl
    simp only [effectOf, Part.complete, none]
  | _ => rfl

/-- The BFLT lines found active at the end of a reset, one after another. -/
theorem Part.forChannels_bfltActive {cs : List Channel} (nodup : cs.Nodup) {q : Part} (released : q.held = false)
    (inactive : ∀ c ∈ cs, q.torque.bflt.get c = false) :
    q.forChannels cs (fun c r => r.bfltActive c) =
      cs.foldl (fun r c => ({ r with torque := { r.torque with bflt := r.torque.bflt.set c true } }).raise .bridge c) q := by
  induction cs generalizing q with
  | nil => rfl
  | cons c cs ih =>
    obtain ⟨fresh, nodup⟩ := List.nodup_cons.mp nodup
    have here : q.bfltActive c = ({ q with torque := { q.torque with bflt := q.torque.bflt.set c true } }).raise .bridge c :=
      if_neg (by rw [released, inactive c List.mem_cons_self]; decide)
    rw [Part.forChannels_cons, List.foldl_cons, here]
    refine ih nodup (by rw [Part.raise_held]; exact released) fun d hd => ?_
    rw [Part.raise_torque]
    exact (Six.get_set_ne _ _ fun e : c = d => fresh (e ▸ hd)).trans (inactive d (List.mem_cons_of_mem c hd))

/-- The interfaces at the end of a reset. -/
theorem Part.startLinks_eq (p : Part) (sel : Three Bool) :
    ((p.startLink .a (sel.get .a)).startLink .b (sel.get .b)).startLink .s (sel.get .s) =
      { p with links := { a := { p.links.a with rx := if sel.a then .ignoring else p.links.a.rx }
                          b := { p.links.b with rx := if sel.b then .ignoring else p.links.b.rx }
                          s := { p.links.s with rx := if sel.s then .ignoring else p.links.s.rx } } } := by
  obtain ⟨a, b, t⟩ := sel
  cases a <;> cases b <;> cases t <;> rfl

/-- Settles O4: a held part takes nothing, and the end of a reset is the start states, the select lines and then the BFLT lines. -/
theorem resetHoldsAndEnds : Obligations.ResetHoldsAndEnds := by
  refine ⟨fun c s notReset notEnd part due => ?_, ?_⟩
  · cases row : dueRowOf c with
    | some r => exact exec_row_idle due row
    | none =>
      rw [exec_idle due row notReset, part, effectOf_afterReset c notEnd, ← part, ← due]
  · rintro s tenHigh bflt sel due held inactive q rfl
    unfold Leads
    rw [exec_idle (c := .resetEnd tenHigh bflt sel) due rfl nofun]
    refine congrArg Host.Outcome.next (congrArg (fun p => ({ s with part := p, due := [] } : State)) ?_)
    show s.part.resetEnd tenHigh bflt sel = _
    unfold Part.resetEnd
    rw [if_pos held]
    dsimp only
    rw [Part.startLinks_eq, Part.startStates_eq]
    refine Part.forChannels_bfltActive (nodup_channels.filter _) rfl fun c _ => ?_
    cases tenHigh <;> exact inactive c

/-! ### Arithmetic -/

/-- The rounded quotient of a magnitude lies within half of the divisor, above it on a tie. -/
theorem roundDiv_near (N d : ℕ) (pos : 0 < d) :
    2 * N ≤ 2 * ((2 * N + d) / (2 * d) * d) + d ∧ 2 * ((2 * N + d) / (2 * d) * d) ≤ 2 * N + d ∧
      2 * N ≠ 2 * ((2 * N + d) / (2 * d) * d) + d := by
  have low := Nat.div_mul_le_self (2 * N + d) (2 * d)
  have high := Nat.lt_div_mul_add (a := 2 * N + d) (b := 2 * d) (by omega)
  have same : (2 * N + d) / (2 * d) * (2 * d) = 2 * ((2 * N + d) / (2 * d) * d) := by ring
  omega

theorem roundDiv_rounds (n : ℤ) (d : ℕ) (pos : 0 < d) :
    (2 * (roundDiv n d * d - n)).natAbs ≤ d ∧
      ((2 * (roundDiv n d * d - n)).natAbs = d → n.natAbs < (roundDiv n d * d).natAbs) := by
  obtain ⟨low, high, tie⟩ := roundDiv_near n.natAbs d pos
  have magnitude : roundDiv n d * d = n.sign * (((2 * n.natAbs + d) / (2 * d) * d : ℕ) : ℤ) := by
    unfold roundDiv; push_cast; ring
  rw [magnitude]
  generalize (2 * n.natAbs + d) / (2 * d) * d = m at *
  rcases lt_trichotomy n 0 with neg | rfl | positive
  · rw [Int.sign_eq_neg_one_of_neg neg]; omega
  · simp; omega
  · rw [Int.sign_eq_one_of_pos positive]; omega

theorem truncDiv_truncates (n : ℤ) (d : ℕ) (pos : 0 < d) :
    (truncDiv n d * d).natAbs ≤ n.natAbs ∧ n.natAbs < ((truncDiv n d).natAbs + 1) * d ∧ 0 ≤ truncDiv n d * n := by
  have magnitude : (truncDiv n d).natAbs = n.natAbs / d := Int.natAbs_tdiv n d
  refine ⟨?_, ?_, ?_⟩
  · rw [Int.natAbs_mul, magnitude, Int.natAbs_natCast]
    exact Nat.div_mul_le_self _ _
  · rw [magnitude, Nat.add_one_mul]
    exact Nat.lt_div_mul_add pos
  · rcases le_total 0 n with h | h
    · exact mul_nonneg (Int.tdiv_nonneg h (Int.natCast_nonneg d)) h
    · have same : truncDiv n d * n = (-n).tdiv d * -n := by rw [Int.neg_tdiv, neg_mul_neg]; rfl
      rw [same]
      exact mul_nonneg (Int.tdiv_nonneg (neg_nonneg.mpr h) (Int.natCast_nonneg d)) (neg_nonneg.mpr h)

/-- Settles O5: the magnitudes of the quotients, the root of `isqrt_eq_sqrt`, and the three ranges of a clamp. -/
theorem arithmeticWords : Obligations.ArithmeticWords := by
  refine ⟨roundDiv_rounds, truncDiv_truncates, fun n small => ?_, fun lo hi x _ => ?_⟩
  · rw [isqrt_eq_sqrt small]
    exact ⟨Nat.sqrt_le n, Nat.lt_succ_sqrt n⟩
  · unfold clampI; omega

/-! ### Carrier unit -/

/-- A command that makes no step due, on a machine with no step due. -/
theorem leads_of_effect {c : Instr} {s : State} {q : Part} {ds : List Due} (due : s.due = []) (row : dueRowOf c = none)
    (notReset : c ≠ .fullReset) (effect : effectOf c s.part = (q, ds)) : Leads c s q ds := by
  rw [Leads, exec_idle due row notReset, effect]

/-- A command without an effect. -/
theorem exec_eq_self {c : Instr} {s : State} (due : s.due = []) (row : dueRowOf c = none) (notReset : c ≠ .fullReset)
    (effect : effectOf c s.part = (s.part, [])) : exec c s = .next s := by
  rw [exec_idle due row notReset, effect, ← due]

theorem Carrier.frameMarkStep_eq (k : Carrier) :
    k.frameMarkStep = { k with
      marked := true, period := k.pendingP.getD k.period, pendingP := none, table := k.pendingTable.getD k.table,
      pendingTable := none, frameMark := k.frameMark + 1
      syncCount := if k.syncCount + 1 < k.divider then k.syncCount + 1 else 0
      sync := decide (k.divider ≤ k.syncCount + 1) } := by
  have count : (if k.divider ≤ k.syncCount + 1 then 0 else k.syncCount + 1) =
      if k.syncCount + 1 < k.divider then k.syncCount + 1 else 0 := by split_ifs <;> omega
  unfold Carrier.frameMarkStep
  dsimp only
  rw [count]

theorem Part.frameMarkOp_released {p : Part} (released : p.held = false) (raw : Raw) (n : ℕ) :
    p.frameMarkOp raw n =
      if n = 0 then ({ p with carrier := p.carrier.frameMarkStep } : Part).busOperation raw
      else ({ p with carrier := p.carrier.frameMarkStep }, [.busOperation n raw]) := by
  unfold Part.frameMarkOp
  rw [released]
  rfl

/-- Settles O6: the carrier's part of the frame mark, and the bus unit's operation taken or left due. -/
theorem frameMarkOpensPeriod : Obligations.FrameMarkOpensPeriod := by
  rintro s raw due released q rfl
  rw [← Carrier.frameMarkStep_eq]
  refine ⟨fun n => leads_of_effect due rfl nofun ?_, leads_of_effect due rfl nofun ?_⟩
  · exact (Part.frameMarkOp_released released raw _).trans (if_neg n.succ_ne_zero)
  · exact (Part.frameMarkOp_released released raw _).trans (if_pos rfl)

/-- The next edge of a leg, by the edges it has passed. -/
theorem LegState.edge_eq (l : LegState) (period x : ℕ) :
    l.edge period x = if 0 < x ∧ x < period then
      match l.passed with
      | .none => ⟨.high, .rise⟩
      | .rise => ⟨.low, .fall⟩
      | .fall => l
    else l := by
  unfold LegState.edge
  by_cases h : 0 < x ∧ x < period
  · exact (if_pos (by simpa using h)).trans (if_pos h).symm
  · exact (if_neg (by simpa using h)).trans (if_neg h).symm

/-- Settles O9: the edge of the leg named, and BRK at the end of its on-time. -/
theorem carrierEventsMoveOutputs : Obligations.CarrierEventsMoveOutputs := by
  refine ⟨?_, fun s due => ⟨fun short => ?_, fun whole => ?_⟩⟩
  · rintro s c leg due d x l l' rfl legA legB legC moved
    refine ⟨fun state => leads_of_effect due rfl nofun ?_, fun off => exec_eq_self due rfl nofun ?_⟩
    · have on : (s.part.stateOf c).bridgeOn = true := by rcases state with h | h <;> rw [h] <;> rfl
      have edge : l' = l.edge s.part.carrier.period x := moved.trans (l.edge_eq _ x).symm
      refine congrArg (·, []) ((if_pos on).trans ?_)
      cases leg with
      | a => obtain ⟨rfl, rfl⟩ := legA rfl; rw [edge]; rfl
      | b => obtain ⟨rfl, rfl⟩ := legB rfl; rw [edge]; rfl
      | c => obtain ⟨rfl, rfl⟩ := legC rfl; rw [edge]; rfl
    · exact congrArg (·, []) (if_neg (by rw [off]; decide))
  · exact leads_of_effect due rfl nofun (congrArg (·, []) (if_pos short))
  · exact exec_eq_self due rfl nofun (congrArg (·, []) (if_neg (not_lt.mpr whole)))

/-! ### The judgement of a sample -/

theorem slotIn_eq {t : Six Channel} (sound : tableSound t) {k : CarrierSlot} {c : Channel} (at_k : t.get k = c) : slotIn t c = k := by
  rw [slotIn, find_slot sound at_k]
  rfl

theorem mem_edges {t : OnTimes} {period e : ℕ} :
    e ∈ t.edges period ↔ ∃ x, (x = t.a ∨ x = t.b ∨ x = t.c) ∧ (0 < x ∧ x < period) ∧
      (e = (period - x) / 2 ∨ e = (period - x) / 2 + x) := by
  have leg (x : ℕ) : e ∈ edgesOf period x ↔ (0 < x ∧ x < period) ∧ (e = (period - x) / 2 ∨ e = (period - x) / 2 + x) := by
    unfold edgesOf riseAt
    split <;> simp_all
  simp only [OnTimes.edges, List.mem_append, leg]
  constructor
  · rintro ((h | h) | h)
    · exact ⟨t.a, Or.inl rfl, h⟩
    · exact ⟨t.b, Or.inr (Or.inl rfl), h⟩
    · exact ⟨t.c, Or.inr (Or.inr rfl), h⟩
  · rintro ⟨x, rfl | rfl | rfl, h⟩
    · exact Or.inl (Or.inl h)
    · exact Or.inl (Or.inr h)
    · exact Or.inr h

theorem Part.judge_eq_false_iff {p : Part} {i : Channel} : p.judge i = false ↔ ∃ j, p.disturbs i j = true := by
  simp [Part.judge, List.all_eq_false, mem_channels]

theorem Part.disturbs_iff {p : Part} {i j : Channel} :
    p.disturbs i j = true ↔ j ≠ i ∧ (p.stateOf j).bridgeOn = true ∧
      ∃ e ∈ (p.carrier.drives.get j).onTimes.edges p.carrier.period,
        ((e : ℤ) - valleyGap p.carrier i j).natAbs ≤ p.carrier.blank := by
  simp [Part.disturbs, near, and_assoc]

theorem ChState.bridgeOn_iff {st : ChState} : st.bridgeOn = true ↔ st = .run ∨ st = .hold := by
  cases st <;> decide

/-- Settles O8: the verdict's definition, with the carrier slots read from the one-to-one table. -/
theorem sampleJudgedByEdges : Obligations.SampleJudgedByEdges := by
  intro p i ki sound at_i
  rw [Part.judge_eq_false_iff]
  constructor
  · rintro ⟨j, disturbs⟩
    obtain ⟨apart, on, e, edge, close⟩ := Part.disturbs_iff.mp disturbs
    obtain ⟨x, leg, ⟨pos, below⟩, time⟩ := mem_edges.mp edge
    obtain ⟨kj, at_j⟩ := mem_table sound j
    rw [valleyGap, slotIn_eq sound at_i, slotIn_eq sound at_j] at close
    exact ⟨j, kj, x, e, apart, at_j, ChState.bridgeOn_iff.mp on, leg, pos, below, time, close⟩
  · rintro ⟨j, kj, x, e, apart, at_j, on, leg, pos, below, time, close⟩
    refine ⟨j, Part.disturbs_iff.mpr ⟨apart, ChState.bridgeOn_iff.mpr on, e, mem_edges.mpr ⟨x, leg, ⟨pos, below⟩, time⟩, ?_⟩⟩
    rw [valleyGap, slotIn_eq sound at_i, slotIn_eq sound at_j]
    exact close

end Sys2Proof.Machine

/-! SUPPORT. A valley and what the sense unit does with its sample, the offsets, and the rows that are due inside another step: the
statements about them. -/

namespace Sys2Proof.Machine

/-! ### The start of a computation -/

/-- The reversed mark of a channel is that of the member that names it. -/
theorem Part.reversedOf_eq {p : Part} (sound : p.EntriesSound) {c : Channel} {m : Motion} {k : LinkSlot} {e : SlotEntry}
    (b : p.boundAt m k e c) : ∃ y ∈ e.members, y.ch = c ∧ p.reversedOf c = y.reversed := by
  obtain ⟨x, member, names⟩ := List.mem_map.mp b.2
  cases found : e.members.find? (fun m => m.ch = c) with
  | none => exact absurd names (by simpa using List.find?_eq_none.mp found x member)
  | some y =>
    refine ⟨y, List.mem_of_find?_eq_some found, by simpa using List.find?_some found, ?_⟩
    simp only [Part.reversedOf, Part.entryOf_of_boundAt sound b, found, Option.any_some]

theorem Part.reversedOf_of_active {p : Part} (sound : p.bindingSound) {c : Channel} (active : (p.stateOf c).active = true) {rev : Bool}
    (h : ∀ m k e y, (p.binding.maps.get m).get k = some e → y ∈ e.members → y.ch = c → rev = y.reversed) : p.reversedOf c = rev := by
  have sound := p.bindingSound_iff.mp sound
  obtain ⟨m, k, e, b⟩ := sound.mapped c active
  obtain ⟨y, member, names, reversed⟩ := Part.reversedOf_eq sound b
  rw [reversed, h m k e y b.1 member names]

/-! ### The steps of a valley -/

theorem legAtValley_eq (period x : ℕ) :
    legAtValley period x = { level := if 0 < x ∧ x = period then .high else .low, passed := .none } := by
  simp [legAtValley, and_comm]

/-- Without a computation in flight a valley completes none. -/
theorem Part.completeBefore_of_none {p : Part} {c : Channel} (none : (p.ctx.get c).flight = none) : p.completeBefore c = p := by
  simp [Part.completeBefore, Part.complete, none]

/-- SYNC falls at the valley of carrier slot 1, and the on-times are loaded. -/
theorem Part.syncEnd_loadOnTimes {p : Part} (sound : tableSound p.carrier.table) (c : Channel) :
    (p.syncEnd c).loadOnTimes c = { p with carrier := { p.carrier with
      sync := if p.carrier.table.get 1 = c then false else p.carrier.sync
      drives := p.carrier.drives.set c { p.carrier.drives.get c with
        onTimes := (p.carrier.drives.get c).waiting.getD (p.carrier.drives.get c).onTimes
        waiting := none
        legs := if (p.stateOf c).bridgeOn then
            legsAtValley p.carrier.period ((p.carrier.drives.get c).waiting.getD (p.carrier.drives.get c).onTimes)
          else (p.carrier.drives.get c).legs } } } := by
  unfold Part.syncEnd
  by_cases slot : p.carrier.table.get 1 = c
  · rw [if_pos slot, if_pos (slotIn_eq sound slot)]; rfl
  · obtain ⟨k, at_k⟩ := mem_table sound c
    have other : slotIn p.carrier.table c ≠ 1 := by
      rw [slotIn_eq sound at_k]
      rintro rfl
      exact slot at_k
    rw [if_neg slot, if_neg other]; rfl

theorem Part.recordVerdict_eq (p : Part) (c : Channel) (valid : Bool) :
    p.recordVerdict c valid = if valid then p.modDrive c (fun d => { d with valid := true })
      else (p.modDrive c (fun d => { d with valid := false })).sendChannel .sampleDropped c .none := by
  cases valid <;> rfl

/-- The sense unit leaves the contexts of the channels as they are. -/
theorem Part.senseSample_ctx (p : Part) (c : Channel) (a b : Raw) (valid : Bool) : (p.senseSample c a b valid).1.ctx = p.ctx := by
  have track : (p.track c a b).1.ctx = p.ctx := by unfold Part.track; dsimp only; split <;> rfl
  unfold Part.senseSample
  split
  · split <;> rfl
  · split <;> rfl
  · dsimp only; split <;> rfl
  all_goals
    split
    · rfl
    · split
      · exact track
      · rfl

theorem Part.recordVerdict_ctx (p : Part) (c : Channel) (valid : Bool) : (p.recordVerdict c valid).ctx = p.ctx := by
  cases valid
  · exact Part.sendChannel_ctx ..
  · rfl

/-- A valley after a frame mark, with no computation in flight. -/
theorem Part.valleyOp_eq {p : Part} {c : Channel} (released : p.held = false) (marked : p.carrier.marked = true)
    (none : (p.ctx.get c).flight = none) (a b : Raw) (o : ValleyOrder) {p1 p2 : Part} (loaded : (p.syncEnd c).loadOnTimes c = p1)
    (verdict : p1.recordVerdict c (p1.judge c) = p2) :
    p.valleyOp c a b o =
      ((p2.senseSample c a b (p1.judge c)).1.startAfter c (if p1.judge c then some (p2.currents c a b) else Option.none) o
        (p2.senseSample c a b (p1.judge c)).2, (p2.senseSample c a b (p1.judge c)).2) := by
  unfold Part.valleyOp
  rw [if_neg (by rw [released, marked]; decide), Part.completeBefore_of_none none]
  dsimp only
  rw [loaded, verdict]

theorem Part.startAfter_eq (p : Part) (c : Channel) (i : Option (ℤ × ℤ)) (o : ValleyOrder) (ds : List Due) :
    p.startAfter c i o ds =
      if (p.stateOf c).bridgeOn = true ∧ (o = .startFirst ∨ ds = []) then p.startComputation c i else p := by
  simp [Part.startAfter]

/-- Settles O7: the inputs of a computation, the legs at a valley, and the steps of a valley in their order. -/
theorem valleyTakesItsSteps : Obligations.ValleyTakesItsSteps := by
  refine ⟨?_, ?_, fun s c a b o due released => ⟨fun unmarked => ?_, ?_⟩⟩
  · rintro p c i x rev sound on rfl marks
    have reversed := Part.reversedOf_of_active sound (ChState.active_of_bridgeOn on) marks
    unfold Part.startComputation Part.flightOf
    rw [reversed]
    rfl
  · rintro period t x l (⟨rfl, rfl⟩ | ⟨rfl, rfl⟩ | ⟨rfl, rfl⟩) <;> exact legAtValley_eq ..
  · refine exec_eq_self due rfl nofun (if_pos ?_)
    rw [released, unmarked]; rfl
  · rintro marked none sound d p1 p2 rfl hp1 hp2
    have loaded : (s.part.syncEnd c).loadOnTimes c = p1 := (Part.syncEnd_loadOnTimes sound c).trans hp1.symm
    have verdict : p1.recordVerdict c (p1.judge c) = p2 := (Part.recordVerdict_eq p1 c _).trans hp2.symm
    have state : ((p2.senseSample c a b (p1.judge c)).1.stateOf c) = s.part.stateOf c := by
      unfold Part.stateOf
      rw [Part.senseSample_ctx, ← verdict, Part.recordVerdict_ctx, hp1]
    refine leads_of_effect due rfl nofun ((Part.valleyOp_eq released marked none a b o loaded verdict).trans ?_)
    rw [Part.startAfter_eq, state]

/-! ### The sense unit -/

theorem senseSample_run {p : Part} {c : Channel} (h : p.stateOf c = .run ∨ p.stateOf c = .hold) (a b : Raw) (valid : Bool) :
    p.senseSample c a b valid = if valid then p.runSample c a b else p.countDrop c := by
  rcases h with h | h <;> simp only [Part.senseSample, h]

theorem senseSample_capture {p : Part} {c : Channel} (h : p.stateOf c = .capture) (a b : Raw) (valid : Bool) :
    p.senseSample c a b valid = if valid then (p.stepQuiet c).captureSample c a b else (p.stepQuiet c).countDrop c := by
  simp only [Part.senseSample, h]

theorem senseSample_rest {p : Part} {c : Channel} (h : p.stateOf c = .off ∨ p.stateOf c = .fault ∨ p.stateOf c = .safeOff)
    (a b : Raw) (valid : Bool) :
    p.senseSample c a b valid =
      if 0 < (p.sense.get c).quiet then (p.stepQuiet c, []) else if valid then p.track c a b else (p, []) := by
  rcases h with h | h | h <;> simp only [Part.senseSample, h]

/-- A quiet tracking sample. -/
theorem Part.track_quiet {p : Part} {c : Channel} {a b : Raw} {dA dB : ℤ} (hA : dA = (a.val : ℤ) - (p.sense.get c).offA)
    (hB : dB = (b.val : ℤ) - (p.sense.get c).offB)
    (quiet : dA.natAbs ≤ (p.ctx.get c).trackG.wt ∧ dB.natAbs ≤ (p.ctx.get c).trackG.wt) :
    p.track c a b =
      (p.modSense c (fun _ => (p.sense.get c).quietSample dA dB),
        (if bucketFull (p.ctx.get c).trackG.bt ((p.sense.get c).bucketA + dA) then [.offsetStep c .a] else []) ++
          (if bucketFull (p.ctx.get c).trackG.bt ((p.sense.get c).bucketB + dB) then [.offsetStep c .b] else [])) := by
  subst hA hB
  unfold Part.track
  dsimp only
  rw [if_pos (by simpa using quiet)]
  rfl

/-- An excursion of a tracking sample. -/
theorem Part.track_excursion {p : Part} {c : Channel} {a b : Raw} {dA dB : ℤ} (hA : dA = (a.val : ℤ) - (p.sense.get c).offA)
    (hB : dB = (b.val : ℤ) - (p.sense.get c).offB)
    (loud : ¬(dA.natAbs ≤ (p.ctx.get c).trackG.wt ∧ dB.natAbs ≤ (p.ctx.get c).trackG.wt)) :
    p.track c a b =
      (p.modSense c (fun u => { u with excursion := u.excursion + 1 }),
        if (p.ctx.get c).trackG.nx ≤ (p.sense.get c).excursion + 1 then [.recapture c a b] else []) := by
  subst hA hB
  unfold Part.track
  dsimp only
  rw [if_neg (by simpa using loud)]

theorem bucketFull_iff {bt : ℕ} {b : ℤ} : bucketFull bt b = true ↔ (bt : ℤ) ≤ b ∨ b ≤ -(bt : ℤ) := by simp [bucketFull]

/-- Two changes of the sense unit's items of one channel. -/
theorem Part.modSense_modSense (p : Part) (c : Channel) (f g : Sense → Sense) :
    (p.modSense c f).modSense c g = p.modSense c (g ∘ f) := by
  simp [Part.modSense]

/-- A capture that counts a drop, the quiet counter stepped before. -/
theorem Part.stepQuiet_countDrop (p : Part) (c : Channel) :
    (p.stepQuiet c).countDrop c =
      (p.modSense c (fun u => { u with quiet := u.quiet - 1, dropCount := u.dropCount + 1 }),
        if (p.ctx.get c).protectG.dl ≤ (p.sense.get c).dropCount + 1 then [.sampleLoss c] else []) := by
  unfold Part.countDrop Part.stepQuiet
  rw [Part.modSense_modSense, Part.modSense_sense, Six.get_set_same]
  rfl

theorem Part.stepQuiet_captureSample (p : Part) (c : Channel) (a b : Raw) :
    (p.stepQuiet c).captureSample c a b =
      (p.modSense c (fun u => { u with quiet := u.quiet - 1, sumA := u.sumA + a.val, sumB := u.sumB + b.val, count := u.count + 1,
                                       dropCount := 0 }),
        if 64 ≤ (p.sense.get c).count + 1 then [.captureEnd c] else []) := by
  unfold Part.captureSample Part.stepQuiet
  rw [Part.modSense_modSense, Part.modSense_sense, Six.get_set_same]
  rfl

/-- Settles O10: the sense unit by the class of the channel's state and the verdict. -/
theorem senseUnitHandlesSample : Obligations.SenseUnitHandlesSample := by
  rintro p c a b u rfl
  refine ⟨fun run => ⟨senseSample_run run a b false, ?_⟩, fun capture => ⟨?_, ?_⟩,
    fun rest => ⟨fun counting v => ?_, fun still => ?_, ?_⟩⟩
  · rintro ia ib m n rfl rfl rfl rfl
    exact ⟨rfl, senseSample_run run a b true⟩
  · exact (senseSample_capture capture a b false).trans (p.stepQuiet_countDrop c)
  · exact (senseSample_capture capture a b true).trans (p.stepQuiet_captureSample c a b)
  · rw [senseSample_rest rest, if_pos counting]; rfl
  · rw [senseSample_rest rest, if_neg (by omega)]; rfl
  · rintro still dA dB g hA hB rfl
    have tracks : p.senseSample c a b true = p.track c a b := by
      rw [senseSample_rest rest, if_neg (by omega)]; rfl
    refine ⟨fun quiet => ?_, fun loud => tracks.trans (Part.track_excursion hA hB loud)⟩
    rw [tracks, Part.track_quiet hA hB quiet]
    simp only [bucketFull_iff]
    rfl

/-! ### Rows that are due inside another step -/

theorem exec_row {i : Instr} {r : DueRow} (row : dueRowOf i = some r) (s : State) : exec i s = .next (s.takeRow r) := by
  cases i with
  | busUv | chopperBlocked | chopperRestored | overcurrent | sampleLoss | captureEnd | offsetStep | recapture | peakExhausted
  | holdEntry | setpointTimeout => cases row; rfl
  | _ => cases row

/-- A row that stands first among the due steps. -/
theorem leads_of_row {s : State} {i : Instr} {r : DueRow} {d : Due} {ds : List Due} {q : Part} (row : dueRowOf i = some r)
    (due : s.due = d :: ds) (first : d.row = some r) (take : d.take s.part = (q, [])) : Leads i s q ds := by
  rw [Leads, exec_row row, State.takeRow_head s r d ds due first, take]
  rfl

theorem Part.enterHold_of_run {p : Part} {c : Channel} (run : p.stateOf c = .run) :
    p.enterHold c = ({ p with ctx := p.ctx.set c { p.ctx.get c with hold := 0, state := .hold } } : Part).sendChannel
      .stateEntered c (.entered .hold) := by
  unfold Part.enterHold Part.enter
  rw [if_pos run]
  simp [Part.modCtx]

/-- Settles O12: a row is taken from the agenda, and each row does what its rule says. -/
theorem dueRowsActWhenDue : Obligations.DueRowsActWhenDue := by
  refine ⟨fun s i r row => ⟨fun idle => exec_row_idle idle row, fun d ds due => ⟨fun first => ?_, fun later => ?_⟩⟩,
    fun s ds => ⟨fun cs due => leads_of_row rfl due rfl rfl, fun due => leads_of_row rfl due rfl rfl,
      fun due => leads_of_row rfl due rfl rfl, fun c => ⟨fun due => leads_of_row rfl due rfl rfl,
        fun due => leads_of_row rfl due rfl rfl, fun due => leads_of_row rfl due rfl rfl, fun due => leads_of_row rfl due rfl rfl,
        fun due other => leads_of_row rfl due rfl ?_, fun due run => leads_of_row rfl due rfl ?_⟩⟩⟩
  · rw [Leads, exec_row row, State.takeRow_head s r d ds due first]
  · rw [exec_row row, exec_row row, State.takeRow_later s r d ds due later]
  · exact congrArg (·, []) (if_neg other)
  · exact congrArg (·, []) (Part.enterHold_of_run run)

/-! ### Offsets -/

theorem Part.captureEnd_eq {p : Part} {c : Channel} (capture : p.stateOf c = .capture) {a b : ℤ}
    (hA : a = captureOffset (p.sense.get c).sumA) (hB : b = captureOffset (p.sense.get c).sumB) :
    p.captureEnd c =
      if (a - 2048).natAbs ≤ (p.ctx.get c).senseG.ro ∧ (b - 2048).natAbs ≤ (p.ctx.get c).senseG.ro then
        (((p.modSense c (fun u => { u with sumA := 0, sumB := 0, count := 0, offA := a, offB := b, bucketA := 0, bucketB := 0 })).modDrive
          c (fun d => { d with legs := ⟨⟨.low, .none⟩, ⟨.low, .none⟩, ⟨.low, .none⟩⟩ })).enter c .run)
      else (p.modSense c (fun u => { u with sumA := 0, sumB := 0, count := 0 })).raise .offsetRange c := by
  subst hA hB
  unfold Part.captureEnd
  rw [if_pos capture]
  simp only [Bool.and_eq_true, withinRange_iff, Part.modSense_modSense]
  rfl

theorem Part.recapture_eq (p : Part) (c : Channel) (a b : Raw) :
    p.recapture c a b =
      if ((a.val : ℤ) - 2048).natAbs ≤ (p.ctx.get c).senseG.ro ∧ ((b.val : ℤ) - 2048).natAbs ≤ (p.ctx.get c).senseG.ro then
        (p.modSense c (fun u => { u with excursion := 0, offA := a.val, offB := b.val, bucketA := 0, bucketB := 0 })).sendChannel
          .offsetRecaptured c .none
      else (p.modSense c (fun u => { u with excursion := 0 })).raise .offsetRange c := by
  unfold Part.recapture
  simp only [Bool.and_eq_true, withinRange_iff, Part.modSense_modSense]
  rfl

/-- The step of a full bucket, on either side. -/
theorem stepOffset_up {ro bt : ℕ} {off bucket : ℤ} (full : (bt : ℤ) ≤ bucket) :
    stepOffset ro bt off bucket = (clampI (2048 - ro) (2048 + ro) (off + 1), 0) := if_pos full

theorem stepOffset_down {ro bt : ℕ} {off bucket : ℤ} (pos : 0 < bt) (full : bucket ≤ -(bt : ℤ)) :
    stepOffset ro bt off bucket = (clampI (2048 - ro) (2048 + ro) (off - 1), 0) := by
  unfold stepOffset
  rw [if_neg (by omega), if_pos full]
  rfl

theorem Part.offsetStep_a (p : Part) (c : Channel) {x : ℤ × ℤ}
    (h : stepOffset (p.ctx.get c).senseG.ro (p.ctx.get c).trackG.bt (p.sense.get c).offA (p.sense.get c).bucketA = x) :
    p.offsetStep c .a = { p with sense := p.sense.set c { p.sense.get c with offA := x.1, bucketA := x.2 } } := by
  subst h; rfl

theorem Part.offsetStep_b (p : Part) (c : Channel) {x : ℤ × ℤ}
    (h : stepOffset (p.ctx.get c).senseG.ro (p.ctx.get c).trackG.bt (p.sense.get c).offB (p.sense.get c).bucketB = x) :
    p.offsetStep c .b = { p with sense := p.sense.set c { p.sense.get c with offB := x.1, bucketB := x.2 } } := by
  subst h; rfl

/-- Settles O11: the rows of the sense unit that move the offsets, each when it stands first among the due steps. -/
theorem offsetsCapturedAndTracked : Obligations.OffsetsCapturedAndTracked := by
  refine ⟨?_, ?_, ?_⟩
  · rintro s c ds u ro a b due capture rfl rfl hA hB
    have ended := Part.captureEnd_eq capture hA hB
    refine ⟨fun inside => leads_of_row rfl due rfl (congrArg (·, []) (ended.trans (if_pos inside))),
      fun outside => leads_of_row rfl due rfl (congrArg (·, []) (ended.trans (if_neg outside)))⟩
  · rintro s c ds u ro bt rfl rfl rfl pos
    refine ⟨fun due => ⟨fun full => ?_, fun full => ?_⟩, fun due => ⟨fun full => ?_, fun full => ?_⟩⟩
    · exact leads_of_row rfl due rfl (congrArg (·, []) (Part.offsetStep_a _ c (stepOffset_up full)))
    · exact leads_of_row rfl due rfl (congrArg (·, []) (Part.offsetStep_a _ c (stepOffset_down pos full)))
    · exact leads_of_row rfl due rfl (congrArg (·, []) (Part.offsetStep_b _ c (stepOffset_up full)))
    · exact leads_of_row rfl due rfl (congrArg (·, []) (Part.offsetStep_b _ c (stepOffset_down pos full)))
  · rintro s c a b ds u ro due rfl rfl
    have recaptured := s.part.recapture_eq c a b
    exact ⟨fun inside => leads_of_row rfl due rfl (congrArg (·, []) (recaptured.trans (if_pos inside))),
      fun outside => leads_of_row rfl due rfl (congrArg (·, []) (recaptured.trans (if_neg outside)))⟩

end Sys2Proof.Machine

/-! SUPPORT. The bus budget unit: its operation at a frame mark, the entries and what a review writes, and the grants that the entries
share. -/

namespace Sys2Proof.Machine

/-! ### The measurement and its checks -/

theorem Part.measureBus_eq (p : Part) (raw : Raw) {vdc n : ℕ} {q : Part}
    (hvdc : vdc = (clampI 0 9000 (roundDiv (raw.val * p.bus.gv : ℕ) 256)).toNat)
    (hn : n = if vdc < p.bus.uv then min 15 (p.bus.uvCount + 1) else 0)
    (hq : q = if p.bus.ov < vdc then ({ p with bus := { p.bus with vdc := vdc } } : Part).raiseOn .busOv p.activeChannels
      else { p with bus := { p.bus with vdc := vdc } }) :
    p.measureBus raw = { q with bus := { q.bus with uvCount := n } } ∧ q.bus.nuv = p.bus.nuv := by
  have measured : measuredVdc raw.val p.bus.gv = vdc := by rw [hvdc]; push_cast; rfl
  have count : nextUvCount p.bus vdc = n := hn.symm
  constructor
  · unfold Part.measureBus
    dsimp only
    rw [measured, count, hq]
  · subst hq
    split
    · exact Part.raiseOn_keeps (fun r => r.bus.nuv = p.bus.nuv)
        (fun r x c h => (congrArg Bus.nuv (Part.raiseOne_bus r x c)).trans h) _ _ _ rfl
    · rfl

theorem Part.mem_activeChannels {p : Part} {c : Channel} : c ∈ p.activeChannels ↔ (p.stateOf c).active = true := by
  simp [Part.activeChannels, mem_channels]

/-- Settles O13: the threshold checks of a measurement, and the causes that BUS_UV adds to those of the overvoltage check. -/
theorem busOperationInThreeParts : Obligations.BusOperationInThreeParts := by
  rintro p raw vdc n q cs rfl hvdc hn hq
  obtain ⟨measured, nuv⟩ := p.measureBus_eq raw hvdc hn hq
  refine ⟨?_, ?_⟩
  · unfold Part.busOperation
    dsimp only
    rw [measured, ← nuv]
    rfl
  · rintro c r active rfl
    have mine : c ∈ p.activeChannels := Part.mem_activeChannels.mpr active
    have out : q.stateOf c ≠ .safeOff := by
      have before : p.stateOf c ≠ .safeOff := ChState.ne_safeOff_of_active active
      rw [hq]
      split
      · exact Part.raiseOn_keeps _ (Part.raiseOne_keeps_out_of_safeOff c) _ _ _ before
      · exact before
    obtain ⟨undervoltage, fault⟩ := q.raiseOn_mem .busUv _ mine
    refine ⟨undervoltage, fun above => ?_, fault out⟩
    have overvoltage : (q.causesOf c).has .busOv = true := by
      rw [hq, if_pos above]
      exact (Part.raiseOn_mem _ .busOv _ mine).1
    exact Part.raiseOn_keeps _ (Part.raiseOne_keeps_cause c .busOv) q .busUv _ overvoltage

/-! ### The entries of a review -/

theorem Part.mem_boundEntries {p : Part} {e : SlotEntry} : e ∈ p.boundEntries ↔ ∃ m k, p.entryAt m k = some e := by
  have every : ∀ k : LinkSlot, k ∈ linkSlots := by decide
  simp only [Part.boundEntries, Part.slotsOf, List.filterMap_append, List.filterMap_map, List.mem_append, List.mem_filterMap,
    Function.comp_apply]
  constructor
  · rintro (⟨k, -, h⟩ | ⟨k, -, h⟩)
    · exact ⟨.a, k, h⟩
    · exact ⟨.b, k, h⟩
  · rintro ⟨m, k, h⟩
    cases m with
    | a => exact Or.inl ⟨k, every k, h⟩
    | b => exact Or.inr ⟨k, every k, h⟩

theorem Part.partnerOf_eq_none_iff {p : Part} (sound : p.EntriesSound) {c : Channel} :
    p.partnerOf c = none ↔ ∀ m k x y, p.entryAt m k = some ⟨x, some y⟩ → x.ch ≠ c ∧ y.ch ≠ c := by
  refine ⟨fun none m k x y bound => ⟨?_, ?_⟩, Part.partnerOf_eq_none⟩
  · rintro rfl; rw [Part.partnerOf_first sound bound] at none; cases none
  · rintro rfl; rw [Part.partnerOf_second sound bound] at none; cases none

theorem Part.singleEntry_eq_some {p : Part} {c : Channel} {e : Entry} :
    p.singleEntry c = some e ↔ (p.stateOf c).bridgeOn = true ∧ p.partnerOf c = none ∧
      e = { chans := [c], demand := (p.ctx.get c).demand, cls := p.bus.cls.get c, reserve := p.bus.reserve.get c } := by
  unfold Part.singleEntry Part.countedDemand
  by_cases on : (p.stateOf c).bridgeOn = true
  · simp only [on, Bool.true_and, Option.isNone_iff_eq_none, Option.ite_none_right_eq_some, if_true, Option.some.injEq, true_and]
    exact and_congr_right' eq_comm
  · simp [on]

theorem Part.pairEntry_eq_some {p : Part} {s : SlotEntry} {e : Entry} :
    p.pairEntry s = some e ↔ ∃ x y, s = ⟨x, some y⟩ ∧ ((p.stateOf x.ch).bridgeOn = true ∨ (p.stateOf y.ch).bridgeOn = true) ∧
      e = { chans := [x.ch, y.ch], demand := p.countedDemand x.ch + p.countedDemand y.ch
            cls := min (p.bus.cls.get x.ch) (p.bus.cls.get y.ch)
            reserve := p.bus.reserve.get x.ch + p.bus.reserve.get y.ch } := by
  obtain ⟨x, second⟩ := s
  cases second with
  | none => simp [Part.pairEntry]
  | some y =>
    simp only [Part.pairEntry, Option.ite_none_right_eq_some, Bool.or_eq_true, Option.some.injEq, SlotEntry.mk.injEq]
    constructor
    · rintro ⟨on, rfl⟩
      exact ⟨x, y, ⟨rfl, rfl⟩, on, rfl⟩
    · rintro ⟨x', y', ⟨rfl, rfl⟩, on, rfl⟩
      exact ⟨on, rfl⟩

theorem Part.mem_entries {p : Part} {e : Entry} :
    e ∈ p.entries ↔ (∃ c, p.singleEntry c = some e) ∨ ∃ m k s, p.entryAt m k = some s ∧ p.pairEntry s = some e := by
  simp only [Part.entries, List.mem_append, List.mem_filterMap, mem_channels, true_and, Part.mem_boundEntries]
  refine or_congr_right ⟨?_, ?_⟩
  · rintro ⟨s, ⟨m, k, bound⟩, pair⟩; exact ⟨m, k, s, bound, pair⟩
  · rintro ⟨m, k, s, bound, pair⟩; exact ⟨s, ⟨m, k, bound⟩, pair⟩

/-- Settles O14: the two kinds of entries, with a channel's partner read from the sound slot maps. -/
theorem reviewEntriesFormed : Obligations.ReviewEntriesFormed := by
  intro p e sound
  rw [Part.mem_entries]
  refine or_congr (exists_congr fun c => ?_) ⟨?_, ?_⟩
  · rw [Part.singleEntry_eq_some, Part.partnerOf_eq_none_iff (p.bindingSound_iff.mp sound)]
    rfl
  · rintro ⟨m, k, s, bound, pair⟩
    obtain ⟨x, y, rfl, on, formed⟩ := Part.pairEntry_eq_some.mp pair
    exact ⟨m, k, x, y, bound, on, formed⟩
  · rintro ⟨m, k, x, y, bound, on, formed⟩
    exact ⟨m, k, ⟨x, some y⟩, bound, Part.pairEntry_eq_some.mpr ⟨x, y, rfl, on, formed⟩⟩

/-! ### What a review writes -/

/-- A channel in RUN or HOLD is in an entry of the review. -/
theorem Part.exists_entry {p : Part} {c : Channel} (on : (p.stateOf c).bridgeOn = true) : ∃ e ∈ p.entries, c ∈ e.chans := by
  cases partner : p.partnerOf c with
  | none =>
    exact ⟨_, Part.mem_entries.mpr (Or.inl ⟨c, Part.singleEntry_eq_some.mpr ⟨on, partner, rfl⟩⟩), List.mem_singleton_self c⟩
  | some d =>
    obtain ⟨m, k, x, y, bound, ⟨rfl, -⟩ | ⟨rfl, -⟩⟩ := Part.pair_of_partnerOf partner
    · exact ⟨_, Part.mem_entries.mpr (Or.inr ⟨m, k, _, bound, Part.pairEntry_eq_some.mpr ⟨x, y, rfl, Or.inl on, rfl⟩⟩), by simp⟩
    · exact ⟨_, Part.mem_entries.mpr (Or.inr ⟨m, k, _, bound, Part.pairEntry_eq_some.mpr ⟨x, y, rfl, Or.inr on, rfl⟩⟩), by simp⟩

theorem Part.newScale_of_off {p : Part} {c : Channel} (off : (p.stateOf c).bridgeOn = false) (es : List Entry) (capEff : ℕ) :
    p.newScale es capEff c = 4096 := if_neg (by rw [off]; decide)

theorem Part.newScale_of_on {p : Part} {c : Channel} (on : (p.stateOf c).bridgeOn = true) (capEff : ℕ) :
    ∃ e ∈ p.entries, c ∈ e.chans ∧ p.newScale p.entries capEff c = entryScale p.bus p.entries capEff e := by
  obtain ⟨e, mem, names⟩ := Part.exists_entry on
  cases found : p.entries.find? (fun e => e.chans.contains c) with
  | none => exact absurd names (by simpa using List.find?_eq_none.mp found e mem)
  | some e' =>
    refine ⟨e', List.mem_of_find?_eq_some found, by simpa using List.find?_some found, ?_⟩
    unfold Part.newScale
    rw [if_pos on, found]

theorem Part.writeScale_eq (p : Part) (c : Channel) (s : ℕ) :
    p.writeScale c s =
      if p.bus.scale.get c = 4096 ∧ s < 4096 then
        ({ p with bus := { p.bus with scale := p.bus.scale.set c s } } : Part).sendChannel .budgetLimited c .none
      else if p.bus.scale.get c < 4096 ∧ s = 4096 then
        ({ p with bus := { p.bus with scale := p.bus.scale.set c s } } : Part).sendChannel .budgetReleased c .none
      else { p with bus := { p.bus with scale := p.bus.scale.set c s } } := by
  unfold Part.writeScale Config.fullScale
  simp only [Bool.and_eq_true, decide_eq_true_eq]

/-- A scale written leaves the rest of the bus unit as it is. -/
theorem Part.writeScale_bus (p : Part) (c : Channel) (s : ℕ) :
    (p.writeScale c s).bus = { p.bus with scale := p.bus.scale.set c s } := by
  rw [Part.writeScale_eq]
  split
  · rw [Part.sendChannel_bus]
  · split
    · rw [Part.sendChannel_bus]
    · rfl

theorem Bus.blocks_iff (b : Bus) : b.blocks = true ↔ b.blocked = false ∧ 0 < b.hmax ∧ b.hmax ≤ b.heat := by
  simp [Bus.blocks, and_assoc]

theorem Bus.restores_iff (b : Bus) : b.restores = true ↔ b.blocked = true ∧ (b.hmax = 0 ∨ b.heat ≤ b.hmax / 2) := by
  simp [Bus.restores]

/-- Settles O15: the scales as the review forms them, and the fields of the bus unit that no scale touches. -/
theorem reviewWritesBusUnit : Obligations.ReviewWritesBusUnit := by
  rintro p capEff pch h hcap hpch hh
  have cap : p.bus.capEff = capEff := hcap.symm
  refine ⟨p.newScale p.entries capEff, fun c off => Part.newScale_of_off off _ _, fun c on => Part.newScale_of_on on _, ?_⟩
  rintro written q hwritten hq
  have scales : p.forChannels channels (fun c r => r.writeScale c (p.newScale p.entries capEff c)) = q := by
    simp only [hq, hwritten, ← Part.writeScale_eq]
    rfl
  obtain ⟨blocked, hmax⟩ : q.bus.blocked = p.bus.blocked ∧ q.bus.hmax = p.bus.hmax := by
    rw [← scales]
    refine Part.forChannels_keeps (fun r => r.bus.blocked = p.bus.blocked ∧ r.bus.hmax = p.bus.hmax) _ (fun c r kept => ?_) _ _
      ⟨rfl, rfl⟩
    rw [Part.writeScale_bus]
    exact kept
  have power : chopperPower p.bus p.entries capEff = pch := hpch.symm
  have heat : nextHeat p.bus pch = h := hh.symm
  unfold Part.review
  dsimp only
  simp only [cap, power, heat, scales, Bus.blocks_iff, Bus.restores_iff, blocked, hmax]
  rfl

/-! ### Conditions and scales -/

theorem motoringSum_eq (es : List Entry) : (motoringSum es : ℤ) = (es.map (fun e => max e.demand 0)).sum := by
  induction es with
  | nil => rfl
  | cons e es ih => simp only [motoringSum, List.map_cons, List.sum_cons, Nat.cast_add, Int.ofNat_toNat] at ih ⊢; rw [ih]

theorem regenSum_eq (es : List Entry) : (regenSum es : ℤ) = (es.map (fun e => max (-e.demand) 0)).sum := by
  induction es with
  | nil => rfl
  | cons e es ih => simp only [regenSum, List.map_cons, List.sum_cons, Nat.cast_add, Int.ofNat_toNat] at ih ⊢; rw [ih]

section
variable (b : Bus) (es : List Entry) (capEff : ℕ)

theorem conditionOf_motoring (h : (b.feed : ℤ) < motoringSum es - regenSum es) : conditionOf b es capEff = .motoringLimited :=
  if_pos h

theorem conditionOf_regen (h : (b.regen : ℤ) + capEff < regenSum es - motoringSum es) :
    conditionOf b es capEff = .regenLimited := by
  unfold conditionOf
  dsimp only
  rw [if_neg (by omega), if_pos (by push_cast; exact h)]

theorem conditionOf_normal (motoring : (motoringSum es : ℤ) - regenSum es ≤ b.feed)
    (regen : (regenSum es : ℤ) - motoringSum es ≤ b.regen + capEff) : conditionOf b es capEff = .normal := by
  unfold conditionOf
  dsimp only
  rw [if_neg (by omega), if_neg (by push_cast; omega)]

end

/-- Settles O16: the three conditions of a review, and the two steps of the allocation. -/
theorem scalesFollowGrants : Obligations.ScalesFollowGrants := by
  refine ⟨?_, ?_⟩
  · rintro b es capEff e t n ht hn
    rw [← motoringSum_eq] at ht
    rw [← regenSum_eq] at hn
    subst ht hn
    refine ⟨fun limited => ?_, fun limited => ?_, fun motoring regen => ?_⟩
    · have condition := conditionOf_motoring b es capEff limited
      refine ⟨condition, fun rest => ?_, fun mine => ?_⟩
      · simp only [entryScale, condition, if_neg (not_lt.mpr rest)]; rfl
      · simp only [entryScale, condition, if_pos mine]; rfl
    · have condition := conditionOf_regen b es capEff limited
      refine ⟨condition, fun rest => ?_, fun mine => ?_⟩
      · simp only [entryScale, condition, if_neg (not_lt.mpr rest)]; rfl
      · simp only [entryScale, condition, if_pos mine]; rfl
    · have condition := conditionOf_normal b es capEff motoring regen
      refine ⟨condition, ?_⟩
      simp only [entryScale, condition]; rfl
  · rintro xs pav sr rfl
    refine ⟨fun short x _ => if_pos short, fun enough => ⟨remainderAt xs (pav - reserveSum xs), rfl, ?_⟩⟩
    rintro k ex rfl
    refine ⟨rfl, ?_⟩
    rintro x _ rfl
    exact if_neg (not_lt.mpr enough)

/-! ### The grants fit the power -/

theorem Share.g_le_d (x : Share) : x.g ≤ x.d := min_le_left _ _

theorem Share.g_add_excess (x : Share) : x.g + x.excess = x.d := Nat.add_sub_cancel' x.g_le_d

/-- Parts rounded down sum to no more than the whole. -/
theorem sum_map_div_le {α : Type} (f : α → ℕ) (c e : ℕ) (xs : List α) :
    (xs.map (fun x => f x * c / e)).sum ≤ (xs.map f).sum * c / e := by
  induction xs with
  | nil => simp
  | cons x xs ih =>
    simp only [List.map_cons, List.sum_cons, add_mul]
    exact (Nat.add_le_add_left ih _).trans (Nat.div_add_div_le_add_div ..)

/-- What a participant is granted above its reserve grant (R98). -/
def Share.increment (xs : List Share) (r : ℕ) (x : Share) : ℕ :=
  if classExcess xs x.cls ≤ remainderAt xs r x.cls then x.excess
  else x.excess * remainderAt xs r x.cls / classExcess xs x.cls

theorem classGrant_eq (xs : List Share) (r : ℕ) (x : Share) : classGrant xs r x = x.g + x.increment xs r := by
  unfold classGrant Share.increment
  dsimp only
  split
  · exact x.g_add_excess.symm
  · rfl

theorem Share.increment_le (xs : List Share) (r : ℕ) (x : Share) : x.increment xs r ≤ x.excess := by
  unfold Share.increment
  split
  · exact le_rfl
  · next short =>
    exact Nat.div_le_of_le_mul ((Nat.mul_le_mul_left _ (not_le.mp short).le).trans (Nat.mul_comm ..).le)

/-- What the participants of class `k` are granted above their reserve grants, with the remainder they leave. -/
theorem classIncrements_le (xs : List Share) (r k : ℕ) :
    ((xs.filter (fun x => x.cls = k)).map (Share.increment xs r)).sum + remainderAt xs r (k + 1) ≤ remainderAt xs r k := by
  have here : (xs.filter (fun x => x.cls = k)).map (Share.increment xs r) = (xs.filter (fun x => x.cls = k)).map (fun x =>
      if classExcess xs k ≤ remainderAt xs r k then x.excess else x.excess * remainderAt xs r k / classExcess xs k) := by
    refine List.map_congr_left fun x mem => ?_
    obtain rfl : x.cls = k := by simpa using (List.mem_filter.mp mem).2
    rfl
  rw [here, remainderAt]
  split
  · next fits =>
    have whole : ((xs.filter (fun x => x.cls = k)).map (fun x => x.excess)).sum = classExcess xs k := rfl
    omega
  · next short =>
    refine (sum_map_div_le Share.excess _ _ _).trans ?_
    rw [Nat.mul_comm]
    exact (Nat.mul_div_cancel _ (by omega : 0 < classExcess xs k)).le

theorem sum_filter_lt_succ (f : Share → ℕ) (k : ℕ) (xs : List Share) :
    ((xs.filter (fun x => x.cls < k + 1)).map f).sum =
      ((xs.filter (fun x => x.cls < k)).map f).sum + ((xs.filter (fun x => x.cls = k)).map f).sum := by
  induction xs with
  | nil => rfl
  | cons x xs ih =>
    rcases lt_trichotomy x.cls k with below | here | above
    · simp only [List.filter_cons, decide_eq_true_eq, below, below.ne, Nat.lt_succ_of_lt below, if_true, if_false, List.map_cons,
        List.sum_cons]
      omega
    · simp only [List.filter_cons, decide_eq_true_eq, here, lt_irrefl, Nat.lt_succ_self, if_true, if_false, List.map_cons,
        List.sum_cons]
      omega
    · simp only [List.filter_cons, decide_eq_true_eq, above.ne', not_lt.mpr above.le, not_lt.mpr (Nat.succ_le_of_lt above), if_false]
      omega

/-- The classes below `k` share what the remainder has lost so far. -/
theorem increments_below_le (xs : List Share) (r k : ℕ) :
    ((xs.filter (fun x => x.cls < k)).map (Share.increment xs r)).sum + remainderAt xs r k ≤ r := by
  induction k with
  | zero => simp [remainderAt]
  | succ k ih =>
    have class_k := classIncrements_le xs r k
    rw [sum_filter_lt_succ]
    omega

theorem exists_above_classes (xs : List Share) : ∃ n, ∀ x ∈ xs, x.cls < n := by
  induction xs with
  | nil => exact ⟨0, nofun⟩
  | cons y xs ih =>
    obtain ⟨n, above⟩ := ih
    refine ⟨max n (y.cls + 1), fun x mem => ?_⟩
    rcases List.mem_cons.mp mem with rfl | mem
    · omega
    · have := above x mem; omega

theorem increments_le (xs : List Share) (r : ℕ) : (xs.map (Share.increment xs r)).sum ≤ r := by
  obtain ⟨n, above⟩ := exists_above_classes xs
  have all : xs.filter (fun x => x.cls < n) = xs := List.filter_eq_self.mpr fun x mem => by simpa using above x mem
  have shared := increments_below_le xs r n
  rw [all] at shared
  omega

theorem grant_of_short {xs : List Share} {pav : ℕ} (short : pav < reserveSum xs) (x : Share) :
    grant xs pav x = x.g * pav / reserveSum xs := if_pos short

theorem grant_of_enough {xs : List Share} {pav : ℕ} (enough : reserveSum xs ≤ pav) (x : Share) :
    grant xs pav x = x.g + x.increment xs (pav - reserveSum xs) :=
  (if_neg (not_lt.mpr enough)).trans (classGrant_eq ..)

/-- Settles O17: rounding down keeps the reserve step within the power, and each class takes no more than the remainder it finds. -/
theorem grantsFitThePower : Obligations.GrantsFitThePower := by
  intro xs pav
  by_cases short : pav < reserveSum xs
  · have pos : 0 < reserveSum xs := by omega
    rw [funext (grant_of_short short)]
    refine ⟨(sum_map_div_le Share.g pav _ xs).trans ?_, fun x _ => ?_⟩
    · exact (Nat.mul_div_cancel_left pav pos).le
    · exact (Nat.div_le_of_le_mul ((Nat.mul_le_mul_left _ short.le).trans (Nat.mul_comm ..).le)).trans x.g_le_d
  · have enough := not_lt.mp short
    rw [funext (grant_of_enough enough)]
    refine ⟨?_, fun x _ => ?_⟩
    · have reserves : (xs.map (fun x => x.g)).sum = reserveSum xs := rfl
      have increments := increments_le xs (pav - reserveSum xs)
      rw [List.sum_map_add, reserves]
      exact (Nat.add_le_add_left increments _).trans (Nat.add_sub_cancel' enough).le
    · exact (Nat.add_le_add_left (x.increment_le xs _) _).trans x.g_add_excess.le

end Sys2Proof.Machine

/-! SUPPORT. The current loop engine, and what causes and changes of state do to one channel: the statements about them. -/

namespace Sys2Proof.Machine

/-! ### Stages of the computation -/

theorem intake_fresh {f : Flight} {x : Setpoint} (given : f.setpoint = some x) (fresh : x.fresh = true) :
    intake f = takeSetpoint x := by
  simp only [intake, given, fresh, if_true]

theorem intake_carryOn {f : Flight} (stale : ∀ x, f.setpoint = some x → x.fresh = false) : intake f = carryOn f := by
  unfold intake
  split
  · next x given => exact if_neg (by rw [stale x given]; decide)
  · rfl

theorem ramp_cases (rs : ℕ) (v : ℤ) :
    ((rs : ℤ) < v → ramp rs v = v - rs) ∧ (v < -(rs : ℤ) → ramp rs v = v + rs) ∧ (-(rs : ℤ) ≤ v → v ≤ rs → ramp rs v = 0) := by
  unfold ramp
  refine ⟨fun h => if_pos h, fun h => ?_, fun low high => ?_⟩
  · rw [if_neg (by omega), if_pos h]
  · rw [if_neg (by omega), if_neg (by omega)]

/-- Settles O19: a fresh setpoint, and what carries on without one. -/
theorem setpointIntake : Obligations.SetpointIntake := by
  refine fun f => ⟨fun x given fresh => intake_fresh given fresh, fun stale => ?_⟩
  rw [intake_carryOn stale]
  refine ⟨rfl, rfl, rfl, rfl, rfl, fun other => ?_, fun hold => ⟨if_pos hold, ?_⟩⟩
  · exact ⟨if_neg other, if_neg other, if_neg other⟩
  · have idRef : (carryOn f).idRef = ramp f.holdG.rs f.idRef := if_pos hold
    have iqRef : (carryOn f).iqRef = ramp f.holdG.rs f.iqRef := if_pos hold
    rintro v w (⟨rfl, rfl⟩ | ⟨rfl, rfl⟩)
    · rw [idRef]; exact ramp_cases _ _
    · rw [iqRef]; exact ramp_cases _ _

theorem shapedIq_natAbs_le (f : Flight) (n : Intake) : (shapedIq f n).natAbs ≤ qLimit f n := clampI_natAbs_le _ _

theorem effectiveIq_natAbs (f : Flight) (n : Intake) : (effectiveIq f n).natAbs = (shapedIq f n).natAbs * f.scale / 4096 := by
  unfold effectiveIq truncDiv
  rw [Int.natAbs_tdiv, Int.natAbs_mul, Int.natAbs_natCast]
  rfl

theorem effectiveIq_natAbs_le {f : Flight} (full : f.scale ≤ 4096) (n : Intake) :
    (effectiveIq f n).natAbs ≤ (shapedIq f n).natAbs := by
  rw [effectiveIq_natAbs]
  exact Nat.div_le_of_le_mul ((Nat.mul_le_mul_left _ full).trans (Nat.mul_comm ..).le)

/-- The grant scale does not turn the reference round. -/
theorem effectiveIq_mul_nonneg (f : Flight) (n : Intake) : 0 ≤ effectiveIq f n * shapedIq f n := by
  have scale : (0 : ℤ) ≤ f.scale := Int.natCast_nonneg _
  unfold effectiveIq truncDiv
  rcases le_total 0 (shapedIq f n) with h | h
  · exact mul_nonneg (Int.tdiv_nonneg (mul_nonneg h scale) (by decide)) h
  · have turned : (shapedIq f n * f.scale).tdiv 4096 * shapedIq f n = (-shapedIq f n * f.scale).tdiv 4096 * -shapedIq f n := by
      rw [neg_mul, Int.neg_tdiv, neg_mul_neg]
    have h' := neg_nonneg.mpr h
    push_cast at turned ⊢
    rw [turned]
    exact mul_nonneg (Int.tdiv_nonneg (mul_nonneg h' scale) (by decide)) h'

theorem spendsPeak_iff (f : Flight) (n : Intake) : spendsPeak f n = true ↔ f.limitsG.icont < (effectiveIq f n).natAbs := by
  unfold spendsPeak
  rw [decide_eq_true_eq]
  exact Nat.cast_lt

/-- Settles O21: the truncated quotient is no larger than the shaped reference, and only the q limit lets that exceed Icont. -/
theorem effectiveReferenceWithinLimits : Obligations.EffectiveReferenceWithinLimits := by
  refine fun f => ⟨rfl, fun full limits => ?_, fun above => ?_, fun within => ?_⟩
  · have smaller := effectiveIq_natAbs_le full (intake f)
    have limit := shapedIq_natAbs_le f (intake f)
    have cases := qLimit_eq f (intake f)
    refine ⟨smaller, effectiveIq_mul_nonneg f _, ?_, fun above => ?_⟩
    · split_ifs at cases <;> omega
    · by_contra peak
      rw [if_neg peak] at cases
      omega
  · have spends := (spendsPeak_iff f (intake f)).mpr above
    exact ⟨spends, if_pos spends⟩
  · have saves := mt (spendsPeak_iff f (intake f)).mp (not_lt.mpr within)
    exact ⟨Bool.eq_false_iff.mpr saves, if_neg saves⟩

theorem integrate_eq (vmax : ℤ) (high low : Bool) (integ inc : ℤ) :
    integrate vmax high low integ inc =
      clampI (-vmax) vmax (if (high = true ∧ 0 < inc) ∨ (low = true ∧ inc < 0) then integ else integ + inc) := by
  simp [integrate]

theorem piOut_of_none {f : Flight} (dropped : f.sample = none) (n : Intake) :
    piOut f n = { intD := f.intD, intQ := f.intQ, vd := f.lastVd, vq := f.lastVq } ∧ measurement f n = f.meas := by
  simp only [piOut, measurement, dropped, and_self]

theorem piOut_of_some {f : Flight} (valid : f.sample.isSome = true) (n : Intake) : piOut f n = piStage f n (measurement f n) := by
  obtain ⟨i, sample⟩ := Option.isSome_iff_exists.mp valid
  simp only [piOut, sample]

/-- Settles O23: the PI stage by the presence of a sample. -/
theorem piStage_holds : Obligations.PiStage := by
  rintro f vmax rfl
  refine ⟨fun dropped => piOut_of_none dropped _, fun valid => ?_⟩
  have stage : (compute f).pi = piStage f (intake f) (compute f).meas := piOut_of_some valid _
  rintro ed eq incD incQ rfl rfl rfl rfl
  rw [stage]
  exact ⟨integrate_eq .., integrate_eq .., rfl, rfl⟩

/-- Settles O26: the on-times of the three legs, their bound, and the power estimate. -/
theorem onTimesAndPower : Obligations.OnTimesAndPower := by
  refine ⟨?_, fun f v fits => ?_, fun _ _ _ _ => rfl⟩
  · rintro f va vb vc vo u rfl rfl on hon
    simp only [hon]
    rfl
  · have bound (x : ℤ) : onTime f x ≤ f.period - 2 * f.blank := by
      have := clampI_range (lo := 0) (hi := (f.period : ℤ) - 2 * f.blank) (by omega)
        (roundDiv ((f.period * vdcUsed f / 2 : ℕ) + x * f.period) (vdcUsed f))
      unfold onTime
      dsimp only
      omega
    exact ⟨bound _, bound _, bound _⟩

/-! ### Completion -/

theorem Part.complete_of_none {p : Part} {c : Channel} (none : (p.ctx.get c).flight = none) : p.complete c = (p, []) := by
  simp only [Part.complete, none]

theorem Part.complete_of_some {p : Part} {c : Channel} {f : Flight} (flight : (p.ctx.get c).flight = some f) :
    p.complete c =
      if (p.stateOf c).bridgeOn = true then
        if (compute f).spends = true ∧ (compute f).allowance = 0 then
          (p.modCtx c (fun x => x.takeResult f), [.peakExhausted c, .decide c])
        else (p.modCtx c (fun x => x.takeResult f)).decide c
      else (p.publish c f, []) := by
  simp only [Part.complete, flight, Bool.and_eq_true, decide_eq_true_eq]

theorem Part.take_publish {p : Part} {c : Channel} {f : Flight} (flight : (p.ctx.get c).flight = some f) :
    (Due.publish c).take p = (p.publish c f, []) := by
  simp only [Due.take, flight]

theorem Part.publish_of_on {p : Part} {c : Channel} {f : Flight} (on : (p.stateOf c).bridgeOn = true) :
    p.publish c f = { p with
      ctx := p.ctx.set c { p.ctx.get c with
        demand := (compute f).demand, record := recordOf f (p.stateOf c) (compute f).onTimes (compute f).demand, flight := none }
      carrier := { p.carrier with drives := p.carrier.drives.set c { p.carrier.drives.get c with
        waiting := some (compute f).onTimes } } } := if_pos on

theorem Part.publish_of_off {p : Part} {c : Channel} {f : Flight} (off : (p.stateOf c).bridgeOn = false) :
    p.publish c f = { p with
      ctx := p.ctx.set c { p.ctx.get c with demand := 0, record := recordOf f (p.stateOf c) .zero 0, flight := none } } :=
  if_neg (by rw [off]; decide)

theorem Part.decide_of_on {p : Part} {c : Channel} {f : Flight} (flight : (p.ctx.get c).flight = some f)
    (on : (p.stateOf c).bridgeOn = true) :
    p.decide c = match decision f with
      | .stay => (p.publish c f, [])
      | .returnToRun => ((p.enter c .run).publish c f, [])
      | .enterHold => (p, [.holdEntry c, .publish c])
      | .timeout => (p, [.setpointTimeout c, .publish c]) := by
  simp only [Part.decide, flight, on, if_true] <;> rfl

theorem decision_timeout {f : Flight} (hold : f.state = .hold) (stale : (intake f).fresh = false) (late : f.holdG.th ≤ (intake f).hold) :
    decision f = .timeout := by
  simp [decision, hold, stale, late]

theorem decision_enterHold {f : Flight} (other : f.state ≠ .hold) (stale : (intake f).fresh = false)
    (late : f.holdG.ts ≤ (intake f).stale) : decision f = .enterHold := by
  simp [decision, other, stale, late]

theorem decision_returnToRun {f : Flight} (hold : f.state = .hold) (fresh : (intake f).fresh = true) : decision f = .returnToRun := by
  simp [decision, hold, fresh]

theorem decision_stay {f : Flight} (inHold : f.state = .hold → (intake f).fresh = false ∧ (intake f).hold < f.holdG.th)
    (inRun : f.state ≠ .hold → (intake f).fresh = true ∨ (intake f).stale < f.holdG.ts) : decision f = .stay := by
  unfold decision
  by_cases hold : f.state = .hold
  · obtain ⟨stale, early⟩ := inHold hold
    simp [hold, stale, not_le.mpr early]
  · rcases inRun hold with fresh | early
    · simp [hold, fresh]
    · simp [hold, not_le.mpr early]

/-- The partner rule of a raise leaves the items of the channel itself as they are: its partner is another channel, for the
channel is no longer active. -/
theorem Part.raise_items (p : Part) (x : Cause) (c : Channel) (out : p.stateOf c ≠ .safeOff) :
    (p.raise x c).ctx.get c = (p.raiseOne x c).ctx.get c ∧
      (p.raise x c).carrier.drives.get c = (p.raiseOne x c).carrier.drives.get c := by
  have fault : (p.raiseOne x c).stateOf c = .fault := by
    rw [Part.raiseOne_stateOf]
    cases e : p.stateOf c <;> simp_all [ChState.faultable]
  unfold Part.raise
  dsimp only
  split
  · unfold Part.partnerRule
    split
    · next d _ =>
      split
      · next active =>
        have apart : d ≠ c := by rintro rfl; rw [fault] at active; cases active
        have only := OnlyAt.raiseOne (p.raiseOne x c) .partner d
        exact ⟨only.ctx c apart, only.drives c apart⟩
      · exact ⟨rfl, rfl⟩
    · exact ⟨rfl, rfl⟩
  · exact ⟨rfl, rfl⟩

/-- A raise on a channel in RUN or HOLD: its context and its drive. -/
theorem Part.raise_of_on {p : Part} {c : Channel} (x : Cause) (on : (p.stateOf c).bridgeOn = true) :
    (p.raise x c).ctx.get c = { (p.ctx.get c).leaveBridgeOn with state := .fault } ∧
      ((p.raise x c).carrier.drives.get c).waiting = none := by
  have faultable : (p.stateOf c).faultable = true := by rcases ChState.bridgeOn_iff.mp on with h | h <;> rw [h] <;> rfl
  obtain ⟨ctx, drive⟩ := p.raise_items x c (ChState.ne_safeOff_of_active (ChState.active_of_bridgeOn on))
  set q := (p.recordCause x c).sendChannel .faultRaised c (.cause x) with hq
  have one : p.raiseOne x c = q.leaveTo c .fault := (p.raiseOne_eq x c).trans (if_pos faultable)
  have sameCtx : q.ctx = p.ctx := by rw [hq, Part.sendChannel_ctx, Part.recordCause_ctx]
  have onQ : (q.stateOf c).bridgeOn = true := by unfold Part.stateOf at on ⊢; rw [sameCtx]; exact on
  constructor
  · rw [ctx, one, Part.leaveTo_context, Part.leaveActive_context, if_pos onQ, sameCtx]
  · rw [drive, one, Part.leaveTo, Part.enter_carrier, Part.leaveActive_drive, if_pos onQ]

theorem Part.settle_publish {p : Part} {c : Channel} {f : Flight} (flight : (p.ctx.get c).flight = some f) :
    p.settle [.publish c] = p.publish c f := by
  rw [Part.settle_cons, Part.take_publish flight, List.nil_append, Part.settle_nil]

/-- SETPOINT_TIMEOUT and then the publication, for a channel in RUN or HOLD. -/
theorem Part.settle_timeout {p : Part} {c : Channel} {f : Flight} (flight : (p.ctx.get c).flight = some f)
    (on : (p.stateOf c).bridgeOn = true) :
    (p.settle [.setpointTimeout c, .publish c]).ctx.get c =
        { (p.ctx.get c).leaveBridgeOn with state := .fault, demand := 0, record := recordOf f .fault .zero 0, flight := none } ∧
      ((p.settle [.setpointTimeout c, .publish c]).carrier.drives.get c).waiting = none := by
  obtain ⟨ctx, waiting⟩ := p.raise_of_on .setpointTimeout on
  set q := p.raise .setpointTimeout c with hq
  have flightQ : (q.ctx.get c).flight = some f := by rw [ctx]; exact flight
  have stateQ : q.stateOf c = .fault := by unfold Part.stateOf; rw [ctx]
  have settled : p.settle [.setpointTimeout c, .publish c] = q.publish c f :=
    (Part.settle_cons ..).trans (Part.settle_publish flightQ)
  rw [settled, Part.publish_of_off (by rw [stateQ]; rfl), stateQ]
  refine ⟨?_, waiting⟩
  dsimp only
  rw [Six.get_set_same, ctx]

/-- HOLD_ENTRY and then the publication, for a channel in RUN. -/
theorem Part.settle_holdEntry {p : Part} {c : Channel} {f : Flight} (flight : (p.ctx.get c).flight = some f)
    (run : p.stateOf c = .run) :
    (p.settle [.holdEntry c, .publish c]).ctx.get c = { p.ctx.get c with
        state := .hold, hold := 0, demand := (compute f).demand
        record := recordOf f .hold (compute f).onTimes (compute f).demand, flight := none } ∧
      ((p.settle [.holdEntry c, .publish c]).carrier.drives.get c).waiting = some (compute f).onTimes := by
  have ctx : (p.enterHold c).ctx.get c = { p.ctx.get c with hold := 0, state := .hold } := by
    rw [Part.enterHold_of_run run, Part.sendChannel_ctx, Six.get_set_same]
  have flightQ : ((p.enterHold c).ctx.get c).flight = some f := by rw [ctx]; exact flight
  have stateQ : (p.enterHold c).stateOf c = .hold := by unfold Part.stateOf; rw [ctx]
  have settled : p.settle [.holdEntry c, .publish c] = (p.enterHold c).publish c f :=
    (Part.settle_cons ..).trans (Part.settle_publish flightQ)
  rw [settled, Part.publish_of_on (by rw [stateQ]; rfl), stateQ]
  dsimp only
  rw [Six.get_set_same, Six.get_set_same, ctx]
  exact ⟨rfl, rfl⟩

/-- Settles O18: the completion by state and decision, and the publication alone and after the two rows that precede it. -/
theorem completionWritesResults : Obligations.CompletionWritesResults := by
  refine ⟨fun s c due none => exec_eq_self due rfl nofun (Part.complete_of_none none), ?_, ?_, ?_,
    fun f st on d => ⟨rfl, rfl, rfl⟩⟩
  · rintro s c f r x q due flight rfl rfl rfl
    have completed := Part.complete_of_some flight
    refine ⟨fun off => leads_of_effect due rfl nofun ?_, fun on exhausted => leads_of_effect due rfl nofun ?_,
      fun on other => leads_of_effect due rfl nofun ?_⟩
    · have off : (s.part.stateOf c).bridgeOn = false := off
      refine (completed.trans (if_neg (by rw [off]; decide))).trans ?_
      rw [Part.publish_of_off off]
      rfl
    · exact (completed.trans (if_pos on)).trans (if_pos exhausted)
    · exact (completed.trans (if_pos on)).trans (if_neg other)
  · rintro p c f n flight rfl on
    have decided := Part.decide_of_on flight on
    refine ⟨fun hold stale late => ?_, fun other stale late => ?_, fun hold fresh => ?_, fun inHold inRun => ?_⟩
    · exact decided.trans (by rw [decision_timeout hold stale late])
    · exact decided.trans (by rw [decision_enterHold other stale late])
    · have entered : ((p.enter c .run).ctx.get c).flight = some f := by rw [Part.enter_ctx, Six.get_set_same]; exact flight
      refine decided.trans ?_
      rw [decision_returnToRun hold fresh]
      exact (Part.take_publish entered).symm
    · refine decided.trans ?_
      rw [decision_stay inHold inRun, Part.take_publish flight]
  · rintro p c f r x d flight rfl rfl rfl
    refine ⟨fun on => ?_, fun off => ?_, fun hold => ?_, fun run => ?_⟩
    · rw [Part.take_publish flight, Part.publish_of_on on]; rfl
    · rw [Part.take_publish flight, Part.publish_of_off off]; rfl
    · have on : (p.stateOf c).bridgeOn = true := ChState.bridgeOn_iff.mpr (Or.inr hold)
      obtain ⟨ctx, waiting⟩ := Part.settle_timeout flight on
      rintro y rfl
      rw [ctx]
      exact ⟨rfl, rfl, rfl, rfl, rfl, rfl, waiting⟩
    · rintro y rfl
      exact Part.settle_holdEntry flight run

/-! ### Leaving states and raising causes -/

/-- Settles O29: the three ways out of a state. -/
theorem leavingStatesClears : Obligations.LeavingStatesClears := by
  rintro p c st x u d rfl rfl rfl
  refine ⟨fun on => ?_, fun capture => ?_, fun rest => ?_⟩
  · have left : p.leaveActive c = p.leaveBridgeOn c := by
      unfold Part.leaveActive Part.stateOf
      rcases on with h | h <;> rw [h]
    unfold Part.leaveTo
    rw [left]
    simp only [Part.enter, Part.leaveBridgeOn, Part.modSense, Part.modCtx, Part.modDrive, Six.get_set_same, Six.set_set]
    rfl
  · have left : p.leaveActive c = p.leaveCapture c := by
      unfold Part.leaveActive Part.stateOf
      rw [capture]
    unfold Part.leaveTo
    rw [left]
    simp only [Part.enter, Part.leaveCapture, Part.modSense, Part.modCtx, Six.get_set_same, Six.set_set]
  · have left : p.leaveActive c = p := by
      unfold Part.leaveActive Part.stateOf
      rcases rest with h | h | h <;> rw [h]
    unfold Part.leaveTo
    rw [left]
    rfl

theorem ChState.faultable_of_active {st : ChState} (active : st.active = true) : st.faultable = true := by
  revert active
  cases st <;> decide

/-- A raise on the partner of a channel that is itself in FAULT raises nothing further. -/
theorem Part.partnerRule_eq_raise {q : Part} {c d : Channel} (partner : q.partnerOf c = some d) (back : q.partnerOf d = some c)
    (inactive : (q.stateOf c).active = false) :
    q.partnerRule c = if (q.stateOf d).active then q.raise .partner d else q := by
  unfold Part.partnerRule
  rw [partner]
  dsimp only
  split
  · next active =>
    have apart : d ≠ c := by rintro rfl; rw [inactive] at active; cases active
    have only := OnlyAt.raiseOne q .partner d
    have sameBinding : (q.raiseOne .partner d).partnerOf d = some c := by
      have same : (q.raiseOne .partner d).binding = q.binding := only.binding
      unfold Part.partnerOf Part.entryOf Part.slotsOf at back ⊢
      rw [same]; exact back
    have still : (q.raiseOne .partner d).partnerRule d = q.raiseOne .partner d := by
      unfold Part.partnerRule
      rw [sameBinding]
      dsimp only
      rw [only.stateOf apart, inactive]
      rfl
    unfold Part.raise
    dsimp only
    rw [if_pos (ChState.faultable_of_active active), still]
  · rfl

end Sys2Proof.Machine

/-! SUPPORT. A cause raised, the edges of the lines, the requests of the torque input logic, DISABLE and ENABLE: the statements about
them. -/

namespace Sys2Proof.Machine

/-! ### A cause raised, with its partner rule -/

theorem Part.partnerOf_of_binding {p q : Part} (same : q.binding = p.binding) (c : Channel) : q.partnerOf c = p.partnerOf c := by
  unfold Part.partnerOf Part.entryOf Part.slotsOf
  rw [same]

theorem Part.raise_of_faultable {p : Part} {x : Cause} {c : Channel} {q : Part} (faultable : (p.stateOf c).faultable = true)
    (hq : q = (p.recordCause x c).sendChannel .faultRaised c (.cause x)) :
    p.raise x c = (q.leaveTo c .fault).partnerRule c := by
  subst hq
  unfold Part.raise Part.raiseOne
  dsimp only
  rw [if_pos faultable, if_pos faultable]

theorem Part.raise_of_not_faultable {p : Part} {x : Cause} {c : Channel} {q : Part} (out : ¬(p.stateOf c).faultable = true)
    (hq : q = (p.recordCause x c).sendChannel .faultRaised c (.cause x)) : p.raise x c = q := by
  subst hq
  unfold Part.raise Part.raiseOne
  dsimp only
  rw [if_neg out, if_neg out]

theorem ChState.faultable_iff (st : ChState) : st.faultable = true ↔ st = .off ∨ st = .capture ∨ st = .run ∨ st = .hold := by
  cases st <;> decide

/-- The partner rule finds no partner, or one that is not active. -/
theorem Part.partnerRule_eq_self {q : Part} {c : Channel}
    (h : ∀ d, q.partnerOf c = some d → (q.stateOf d).active = false) : q.partnerRule c = q := by
  unfold Part.partnerRule
  split
  · next d partner => exact if_neg (by rw [h d partner]; decide)
  · rfl

/-- The two members of a two-member slot are each other's partner, also after the states have changed. -/
theorem Part.partners_of_pair {p q : Part} (sound : p.EntriesSound) (same : q.binding = p.binding) {m : Motion} {k : LinkSlot}
    {y z : Member} (bound : p.entryAt m k = some ⟨y, some z⟩) :
    q.partnerOf y.ch = some z.ch ∧ q.partnerOf z.ch = some y.ch := by
  rw [Part.partnerOf_of_binding same, Part.partnerOf_of_binding same]
  exact ⟨Part.partnerOf_first sound bound, Part.partnerOf_second sound bound⟩

/-- Settles O30: the sets and the event, then FAULT for a faultable channel, then the partner rule on the other member. -/
theorem raiseLatchesAndFaults : Obligations.RaiseLatchesAndFaults := by
  intro p x c q hq
  have recorded : q = (p.recordCause x c).sendChannel .faultRaised c (.cause x) := hq
  refine ⟨fun out => Part.raise_of_not_faultable ((ChState.not_faultable_iff _).mpr out) recorded, fun state sound => ?_⟩
  have sound := p.bindingSound_iff.mp sound
  have faultable := (ChState.faultable_iff _).mpr state
  rw [Part.raise_of_faultable faultable recorded]
  have binding : (q.leaveTo c .fault).binding = p.binding := by
    rw [Part.leaveTo_binding, recorded, Part.sendChannel_binding, Part.recordCause_binding]
  have stateOf (d : Channel) : (q.leaveTo c .fault).stateOf d = if c = d then .fault else p.stateOf d := by
    rw [Part.leaveTo_stateOf, recorded]
    unfold Part.stateOf
    rw [Part.sendChannel_ctx, Part.recordCause_ctx]
  have inactive : ((q.leaveTo c .fault).stateOf c).active = false := by rw [stateOf, if_pos rfl]; rfl
  refine ⟨fun rest => Part.partnerRule_eq_self fun d partner => ?_, fun m k y z bound => ?_⟩
  · rw [stateOf]
    split
    · rfl
    · rw [Part.partnerOf_of_binding binding] at partner
      obtain ⟨m, k, y, z, bound, ⟨first, rfl⟩ | ⟨second, rfl⟩⟩ := Part.pair_of_partnerOf partner
      · exact (rest m k y z bound).1 first
      · exact (rest m k y z bound).2 second
  · obtain ⟨first, second⟩ := Part.partners_of_pair sound binding bound
    have apart := sound.members_ne bound
    refine ⟨?_, ?_⟩
    · rintro rfl active
      rw [Part.partnerRule_eq_raise first second inactive, stateOf, if_neg apart, if_pos active]
    · rintro rfl active
      rw [Part.partnerRule_eq_raise second first inactive, stateOf, if_neg apart.symm, if_pos active]

/-! ### Lines -/

/-- Entry to SAFE_OFF as the manual says it: the pending setpoint absent, then the channel leaves its state. -/
theorem Part.safeOff_eq (p : Part) (c : Channel) :
    p.safeOff c = if p.stateOf c = .safeOff then p
      else ({ p with ctx := p.ctx.set c { p.ctx.get c with setpoint := none } } : Part).leaveTo c .safeOff := by
  unfold Part.safeOff
  split
  · rfl
  · have left : (({ p with ctx := p.ctx.set c { p.ctx.get c with setpoint := none } } : Part).leaveActive c).modCtx c
        (fun x => { x with state := .safeOff }) = p.intoSafeOff c := by
      unfold Part.intoSafeOff Part.leaveActive Part.stateOf
      dsimp only
      rw [Six.get_set_same]
      cases state : (p.ctx.get c).state <;>
        simp only [Part.leaveBridgeOn, Part.leaveCapture, Part.modCtx, Part.modSense, Part.modDrive, Context.leaveBridgeOn,
          Six.get_set_same, Six.set_set]
    unfold Part.leaveTo Part.enter
    rw [left]

theorem Part.bfltActive_of_edge {p : Part} {c : Channel} (released : p.held = false) (inactive : p.torque.bflt.get c = false) :
    p.bfltActive c = ({ p with torque := { p.torque with bflt := p.torque.bflt.set c true } } : Part).raise .bridge c :=
  if_neg (by rw [released, inactive]; decide)

theorem Part.tenFall_of_edge {p : Part} (released : p.held = false) (high : p.torque.ten = true) :
    p.tenFall = (({ p with torque := { p.torque with ten := false, drop := true } } : Part).sendTorqueDrop).forChannels channels
      (fun c q => q.safeOff c) := if_neg (by rw [released, high]; decide)

/-- Settles O31: each edge by the level that the line has. -/
theorem lineEdgesAct : Obligations.LineEdgesAct := by
  rintro s due released
  refine ⟨fun c => ⟨fun inactive => ?_, fun active => ?_, ?_⟩, ?_, fun low => ?_, fun high q hq => ?_⟩
  · exact leads_of_effect due rfl nofun (congrArg (·, []) (Part.bfltActive_of_edge released inactive))
  · exact exec_eq_self due rfl nofun (congrArg (·, []) (if_pos (by rw [active, Bool.or_true])))
  · exact leads_of_effect due rfl nofun (congrArg (·, []) (if_neg (by rw [released]; decide)))
  · exact leads_of_effect due rfl nofun (congrArg (·, []) (if_neg (by rw [released]; decide)))
  · exact exec_eq_self due rfl nofun (congrArg (·, []) (if_pos (by rw [low]; simp)))
  · set r := ({ s.part with torque := { s.part.torque with ten := false, drop := true } } : Part).sendTorqueDrop with hr
    have folded : r.forChannels channels (fun c q => q.safeOff c) = q := by
      rw [hq]
      simp only [← Part.safeOff_eq]
      rfl
    refine ⟨leads_of_effect due rfl nofun (congrArg (·, []) ((Part.tenFall_of_edge released high).trans folded)), fun c => ?_⟩
    obtain ⟨states, faults, torque⟩ := Part.forChannels_safeOff channels r
    rw [folded] at states faults torque
    refine ⟨(states c).trans (if_pos (mem_channels c)), ?_, ?_⟩
    · unfold Part.causesOf; rw [faults]; rfl
    · rw [torque]; rfl

/-! ### Torque withdrawal -/

theorem maskByte_eq (f : Channel → Bool) : maskByte f = [BitVec.ofNat 8 (channels.map (fun c => bit (f c) * 2 ^ c.val)).sum] := by
  rw [maskByte, put8, List.sum_eq_foldl, List.foldl_map]

theorem Part.torqueBytes_eq (q : Part) :
    q.torqueBytes =
      [BitVec.ofNat 8 (channels.map (fun c => bit (q.torque.withdrawn.get c) * 2 ^ c.val)).sum,
       BitVec.ofNat 8 (bit q.torque.drop),
       BitVec.ofNat 8 (channels.map (fun c => bit (q.stateOf c = .safeOff) * 2 ^ c.val)).sum] := by
  rw [Part.torqueBytes, maskByte_eq, maskByte_eq]
  rfl

theorem Part.judgeExit_eq (q : Part) (c : Channel) :
    q.judgeExit c =
      if q.stateOf c = .safeOff ∧ q.torque.ten = true ∧ q.torque.drop = false ∧ q.torque.withdrawn.get c = false then
        ({ q with ctx := q.ctx.set c { q.ctx.get c with
          state := if q.causesOf c = CauseSet.empty then .off else .fault } } : Part).sendChannel .stateEntered c
            (.entered (if q.causesOf c = CauseSet.empty then .off else .fault))
      else q := by
  split
  · next exit =>
    obtain ⟨state, mayExit⟩ := exit
    rw [Part.judgeExit_of_exit state mayExit]
    simp only [CauseSet.isEmpty_iff]
    rfl
  · next stay => exact Part.judgeExit_of_stay stay

/-- Settles O54: the three requests by their own operations, and the partner rule by the slot maps. -/
theorem torqueRequestsWithdrawAndRestore : Obligations.TorqueRequestsWithdrawAndRestore := by
  intro s mask answer judge takes small hanswer hjudge
  have answers (q : Part) : answer q = q.torqueBytes := (hanswer q).trans q.torqueBytes_eq.symm
  have judges : judge = fun q c => q.judgeExit c := funext₂ fun q c => (hjudge q c).trans (q.judgeExit_eq c).symm
  subst judges
  have named : onlyMask [mask] = some (namedChannels mask) := onlyMask_single small
  refine ⟨fun q hq => ?_, fun q c m k y z sound bound inactive => ⟨?_, ?_⟩, fun q c unpaired => ?_, fun q hq => ?_,
    fun low => ?_, fun high q hq => ?_⟩
  · have withdrawn : s.part.withdrawChannels (namedChannels mask) = q := by
      unfold Part.withdrawChannels
      rw [hq, Part.setWithdrawn_eq]
      simp only [← Part.safeOff_eq]
      rfl
    refine does_of_eq takes (by simp) rfl rfl ?_
    simp only [Part.withdrawReq, Part.onSupervisor_s, named, withdrawn, answers]
  · rintro rfl
    obtain ⟨first, second⟩ := Part.partners_of_pair (q.bindingSound_iff.mp sound) rfl bound
    exact Part.partnerRule_eq_raise first second inactive
  · rintro rfl
    obtain ⟨first, second⟩ := Part.partners_of_pair (q.bindingSound_iff.mp sound) rfl bound
    exact Part.partnerRule_eq_raise second first inactive
  · exact Part.partnerRule_eq_self fun d partner => by rw [Part.partnerOf_eq_none unpaired] at partner; cases partner
  · have restored : s.part.restoreChannels (namedChannels mask) = q := by
      unfold Part.restoreChannels
      rw [hq, Part.setWithdrawn_eq]
      rfl
    refine does_of_eq takes (by simp) rfl rfl ?_
    simp only [Part.restoreReq, Part.onSupervisor_s, named, restored, answers]
  · refine refuses_of_eq takes (by decide) rfl rfl ?_
    simp [Part.edgeClearReq, low]
  · have cleared : s.part.clearEdge = q := hq.symm
    refine does_of_eq takes (by simp) rfl rfl ?_
    simp [Part.edgeClearReq, high, cleared, answers]

/-! ### DISABLE -/

theorem onlySlot_ofNat (k : LinkSlot) : onlySlot [BitVec.ofNat 8 k.val] = some k := linkSlotOf_ofNat k

theorem Part.forChannels_stop (cs : List Channel) (p : Part) :
    (∀ d, (p.forChannels cs (fun c q => q.stop c)).stateOf d =
      if d ∈ cs ∧ (p.stateOf d).active = true then .off else p.stateOf d) ∧
      (p.forChannels cs (fun c q => q.stop c)).faults = p.faults ∧
      (p.forChannels cs (fun c q => q.stop c)).binding = p.binding := by
  induction cs generalizing p with
  | nil => exact ⟨fun d => by simp, rfl, rfl⟩
  | cons c cs ih =>
    obtain ⟨states, faults, binding⟩ := ih (p.stop c)
    have kept : (p.stop c).faults = p.faults ∧ (p.stop c).binding = p.binding := by
      unfold Part.stop
      split
      · exact ⟨Part.leaveTo_faults .., Part.leaveTo_binding ..⟩
      · exact ⟨rfl, rfl⟩
    rw [Part.forChannels_cons]
    refine ⟨fun d => ?_, faults.trans kept.1, binding.trans kept.2⟩
    rw [states d, Part.stop_stateOf]
    by_cases active : (p.stateOf d).active = true
    · by_cases here : c = d
      · subst here; simp [active]
      · simp [here, Ne.symm here]
    · have same : (if c = d ∧ (p.stateOf c).active = true then ChState.off else p.stateOf d) = p.stateOf d :=
        if_neg (by rintro ⟨rfl, h⟩; exact active h)
      rw [same]
      simp [active]

/-- Settles O49: the members stopped one after another. -/
theorem disableStopsMembers : Obligations.DisableStopsMembers := by
  rintro s m k i takes rfl
  refine ⟨fun unbound => refuses_of_eq takes (by simp) rfl rfl ?_, fun e q bound hq => ?_⟩
  · simp only [Part.disableReq, Part.onMotion_link, onlySlot_ofNat, unbound]
  · have stopped : s.part.forChannels e.ascending (fun c q => q.stop c) = q := by rw [hq, SlotEntry.ascending_eq]; rfl
    obtain ⟨states, faults, binding⟩ := Part.forChannels_stop e.ascending s.part
    rw [stopped] at states faults binding
    refine ⟨does_of_eq takes (by simp) rfl rfl ?_, faults, binding, fun c mine => ?_, fun c other => ?_⟩
    · simp only [Part.disableReq, Part.onMotion_link, onlySlot_ofNat, bound, stopped]
    · rw [states c]
      simp [SlotEntry.mem_ascending, mine]
    · rw [states c, if_neg fun h => other (SlotEntry.mem_ascending.mp h.1)]

/-! ### ENABLE -/

theorem enableStates_of_active {sts : List ChState} (h : ∃ st ∈ sts, st.active = true) : enableStates sts = some .channelActive := by
  obtain ⟨st, mem, active⟩ := h
  unfold enableStates
  rw [if_neg, if_pos]
  · exact List.any_eq_true.mpr ⟨st, mem, active⟩
  · rw [List.all_eq_true]
    intro all
    have off : st = .off := by simpa using all st mem
    rw [off] at active; cases active

theorem enableStates_of_inactive {sts : List ChState} (inactive : ∀ st ∈ sts, st.active = false) :
    ((∃ st ∈ sts, st = .fault) → enableStates sts = some .faultPresent) ∧
      ((∀ st ∈ sts, st ≠ .fault) → (∃ st ∈ sts, st = .safeOff) → enableStates sts = some .torqueWithdrawn) := by
  have none : sts.any (fun st => st.active) = false := by simpa using inactive
  have notOff {st : ChState} (mem : st ∈ sts) (out : st ≠ .off) : ¬(sts.all (fun st => st = .off)) = true := by
    rw [List.all_eq_true]
    exact fun all => out (by simpa using all st mem)
  unfold enableStates
  rw [none]
  refine ⟨?_, ?_⟩
  · rintro ⟨st, mem, rfl⟩
    rw [if_neg (notOff mem (by decide)), if_neg (by decide), if_pos (List.any_eq_true.mpr ⟨_, mem, by decide⟩)]
  · rintro noFault ⟨st, mem, rfl⟩
    have clear : ¬sts.any (fun st => st = .fault) = true := by
      simpa using fun mem => noFault _ mem rfl
    rw [if_neg (notOff mem (by decide)), if_neg (by decide), if_neg clear]

theorem enableStates_of_off {sts : List ChState} (off : ∀ st ∈ sts, st = .off) : enableStates sts = none :=
  if_pos (by simpa using off)

theorem Marks.complete_iff (m : Marks) :
    m.complete = true ↔ m.sense = true ∧ m.loop = true ∧ m.limits = true ∧ m.protect = true ∧ m.hold = true := by
  simp [Marks.complete, and_assoc]

theorem Part.enableRefusal_of_states {p : Part} {cs : List Channel} {r : Reason} (h : enableStates (cs.map p.stateOf) = some r) :
    p.enableRefusal cs = some r := by
  simp only [Part.enableRefusal, h]

theorem Part.enableRefusal_of_off {p : Part} {cs : List Channel} (off : ∀ c ∈ cs, p.stateOf c = .off) {loaded : Bool}
    (h : loaded = true ↔ ∀ c ∈ cs, (p.ctx.get c).marks.complete = true) :
    p.enableRefusal cs =
      if loaded = false then some .paramsIncomplete
      else if p.bus.budgetSet = false then some .budgetUnset
      else if p.bus.vdc < p.bus.uv + p.bus.uvh then some .busLow
      else none := by
  have none : enableStates (cs.map p.stateOf) = Option.none := enableStates_of_off (by simpa using off)
  have missing : cs.any (fun c => !(p.ctx.get c).marks.complete) = !loaded := by
    rw [Bool.eq_iff_iff, Bool.not_eq_true', ← Bool.not_eq_true loaded, h]
    simp
  simp only [Part.enableRefusal, none, missing, Bool.not_eq_true']

/-- What a channel takes at its entry to CAPTURE. -/
theorem Part.enterCapture_eq (q : Part) (c : Channel) :
    q.enterCapture c = ({ q with
      carrier := { q.carrier with drives := q.carrier.drives.set c { q.carrier.drives.get c with
        onTimes := ⟨0, 0, 0⟩, waiting := none } }
      ctx := q.ctx.set c { q.ctx.get c with
        state := .capture, setpoint := none, idRef := 0, iqRef := 0, theta := 0, dTheta := 0, peak := false,
        intD := 0, intQ := 0, flags := ⟨false, false, false, false⟩, lastVd := 0, lastVq := 0,
        meas := ⟨0, 0, 0, 0⟩, stale := 0, hold := 0, demand := 0 }
      sense := q.sense.set c { q.sense.get c with
        sumA := 0, sumB := 0, count := 0, bucketA := 0, bucketB := 0, excursion := 0, dropCount := 0 } } : Part).sendChannel
      .stateEntered c (.entered .capture) := by
  simp only [Part.enterCapture, Part.enter, Part.modSense, Part.modCtx, Part.modDrive, Six.get_set_same, Six.set_set]
  rfl

/-- Settles O48: the checks of ENABLE in their order, then the entries to CAPTURE. -/
theorem enableChecksThenCaptures : Obligations.EnableChecksThenCaptures := by
  rintro s m k i takes rfl
  refine ⟨fun unbound => refuses_of_eq takes (by simp) rfl rfl ?_, fun e bound => ?_⟩
  · simp only [Part.enableReq, Part.onMotion_link, onlySlot_ofNat, unbound]
  · have refused {r : Reason} (h : s.part.enableRefusal e.chans = some r) :
        Refuses (.enable m.link [BitVec.ofNat 8 k.val]) s m.link .enable r := by
      refine refuses_of_eq takes (by simp) rfl rfl ?_
      simp only [Part.enableReq, Part.onMotion_link, onlySlot_ofNat, bound, h]
    refine ⟨fun active => ?_, fun inactive => ⟨fun fault => ?_, fun noFault safeOff => ?_⟩, fun off loaded hloaded => ?_⟩
    · exact refused (Part.enableRefusal_of_states (enableStates_of_active (by simpa using active)))
    · exact refused (Part.enableRefusal_of_states ((enableStates_of_inactive (by simpa using inactive)).1 (by simpa using fault)))
    · exact refused (Part.enableRefusal_of_states
        ((enableStates_of_inactive (by simpa using inactive)).2 (by simpa using noFault) (by simpa using safeOff)))
    · have refusal := Part.enableRefusal_of_off off (loaded := loaded) (by simpa only [Marks.complete_iff] using hloaded)
      refine ⟨fun missing => refused ?_, fun all unset => refused ?_, fun all budget low => refused ?_, fun all budget enough => ?_⟩
      · rw [refusal, if_pos missing]
      · rw [refusal, if_neg (by rw [all]; decide), if_pos unset]
      · rw [refusal, if_neg (by rw [all]; decide), if_neg (by rw [budget]; decide), if_pos low]
      · have passed : s.part.enableRefusal e.chans = none := by
          rw [refusal, if_neg (by rw [all]; decide), if_neg (by rw [budget]; decide), if_neg (not_lt.mpr enough)]
        refine does_of_eq takes (by simp) rfl rfl ?_
        simp only [Part.enableReq, Part.onMotion_link, onlySlot_ofNat, bound, passed, SlotEntry.ascending_eq, ← Part.enterCapture_eq]
        rfl

end Sys2Proof.Machine

/-! SUPPORT. Frames: how they begin and end, which are rejected, how their bytes spell requests, and which requests are refused for
their link or their structure. -/

namespace Sys2Proof.Machine

/-! ### The bytes of a frame and the request they spell -/

theorem comesAtMark_of_request {c : Instr} {x : Link × Kind × List Byte} (h : requestOf c = some x) (s : State) : comesAtMark s c := by
  cases c with
  | fullReset | frameMark | valley => cases h
  | busUv | chopperBlocked | chopperRestored | overcurrent | sampleLoss | captureEnd | offsetStep | recapture | peakExhausted
  | holdEntry | setpointTimeout => cases h
  | _ => rfl

/-- The bytes of the frame of a request. -/
def requestFrame (k : Kind) (payload : List Byte) : List Byte := frameBody k.code payload ++ [crc8 (frameBody k.code payload)]

theorem requestFrame_length (k : Kind) (payload : List Byte) : (requestFrame k payload).length = payload.length + 3 := by
  simp [requestFrame, frameBody]

/-- The end of a frame that spells a request is that request. -/
theorem Part.frameEnd_request (p : Part) (l : Link) (k : Kind) {payload : List Byte} (fits : payload.length ≤ 60) :
    p.frameEnd l (requestFrame k payload) true = p.request l payload (fun q => q.judgeKind l k payload) := by
  unfold Part.frameEnd Part.request
  rw [requestFrame_length, requestFrame, checkFrame_request k fits]
  simp only [Config.maxPayload, fits, if_true]

/-- Settles O33: both commands act on the part as the judgement of the kind with its payload. -/
theorem frameBytesSpellRequests : Obligations.FrameBytesSpellRequests := by
  intro c s l k payload request fits
  have same : effectOf (.frameError l (requestFrame k payload) true) = effectOf c := by
    funext p
    rw [effectOf_request request]
    exact congrArg (·, []) (p.frameEnd_request l k fits)
  exact (exec_of_comesAtMark (c := .frameError l (requestFrame k payload) true) rfl).trans
    (by rw [same]; exact (exec_of_comesAtMark (comesAtMark_of_request request s)).symm)

/-- The command is the request, or the end of the frame whose bytes spell it. -/
def spells (c : Instr) (l : Link) (k : Kind) (payload : List Byte) : Prop :=
  requestOf c = some (l, k, payload) ∨ c = .frameError l (requestFrame k payload) true

/-- A request that its judgement refuses, given in either form. -/
theorem refuses_of_judge {c : Instr} {s : State} {l : Link} {k : Kind} {payload : List Byte} {r : Reason} (h : spells c l k payload)
    (fits : payload.length ≤ 60) (takes : s.takes l) (judged : s.part.judgeKind l k payload = s.part.refuse l k r) :
    Refuses c s l k r := by
  have refused : (s.part.request l payload (fun q => q.judgeKind l k payload)) =
      s.part.answered l ((s.part.links.get l).clockedOut (payload.length + 3)) (refusedReply k r) := by
    unfold Part.request Config.maxPayload
    rw [Part.takeFrame_of_takes takes, if_pos fits]
    dsimp only
    rw [judged, Part.endFrame_refuse]
  obtain ⟨due, -, -⟩ := takes
  unfold Refuses State.clockedOut
  rcases h with request | rfl
  · have row := row_of_comesAtMark (comesAtMark_of_request request s)
    rw [clocked_request request, exec_idle due row.1 row.2, effectOf_request request, refused, ← due]
  · have bytes : clocked (.frameError l (requestFrame k payload) true) = payload.length + 3 := requestFrame_length k payload
    have effect : effectOf (.frameError l (requestFrame k payload) true) s.part =
        (s.part.request l payload (fun q => q.judgeKind l k payload), []) := congrArg (·, []) (s.part.frameEnd_request l k fits)
    rw [bytes, exec_idle (c := .frameError l (requestFrame k payload) true) due rfl nofun, effect, refused, ← due]

/-! ### Rejected frames -/

/-- An offer does not read the reply buffer. -/
theorem LinkIf.offer_setReply (i : LinkIf) (r : Reply) (k : EventKind) (ch : Option Channel) (d : Detail) (n : Word16) :
    ({ i with reply := r } : LinkIf).offer k ch d n = { i.offer k ch d n with reply := r } := by
  have append (e : QueueEntry) : (({ i with reply := r } : LinkIf).append e).follow = { (i.append e).follow with reply := r } := by
    unfold LinkIf.append
    dsimp only
    split <;> rfl
  unfold LinkIf.offer
  dsimp only
  split
  · split
    · rfl
    · exact append _
  · exact append _

theorem Part.setReply_loseBatch (p : Part) (m : Motion) (r : Reply) :
    (p.setReply m.link r).loseBatch m = (p.loseBatch m).setReply m.link r := by
  simp only [Part.loseBatch, Part.send, Part.setReply, Part.modLink, Three.get_set_same, Three.set_set, LinkIf.offer_setReply]

theorem Link.eq_of_motion {l : Link} {m : Motion} (h : l.motion = some m) : l = m.link := by
  cases l <;> cases h <;> rfl

theorem Part.rejectFrame_eq (p : Part) (l : Link) (c : Subcode) :
    p.rejectFrame l c = (p.withBatchLost l).setReply l (.form .frameError [c.code]) := by
  unfold Part.rejectFrame Part.withBatchLost
  dsimp only
  cases h : l.motion with
  | none => rfl
  | some m =>
    obtain rfl := Link.eq_of_motion h
    dsimp only
    by_cases opened : (p.batches.get m).isSome = true
    · exact (if_pos opened).trans ((p.setReply_loseBatch m _).trans (congrArg (Part.setReply · m.link _) (if_pos opened).symm))
    · exact (if_neg opened).trans (congrArg (Part.setReply · m.link _) (if_neg opened).symm)

theorem rejects_of_checkFrame {s : State} {l : Link} (takes : s.takes l) {bytes : List Byte} {whole : Bool} {c : Subcode}
    (h : checkFrame bytes whole = .error c) : Rejects (.frameError l bytes whole) s l c.code := by
  have ended : s.part.frameEnd l bytes whole = (s.part.withBatchLost l).answered l
      ((s.part.links.get l).clockedOut bytes.length) (.form .frameError [c.code]) := by
    unfold Part.frameEnd
    rw [Part.takeFrame_of_takes takes, h]
    exact (congrArg (Part.endFrame · l _) (s.part.rejectFrame_eq l c)).trans (Part.endFrame_setReply ..)
  obtain ⟨due, -, -⟩ := takes
  unfold Rejects
  rw [exec_idle (c := .frameError l bytes whole) due rfl nofun]
  exact congrArg₂ (fun p ds => Host.Outcome.next ({ s with part := p, due := ds } : State)) ended due.symm

/-- The first two checks of R124: the bytes clocked and the length byte. -/
theorem checkFrame_length {bytes : List Byte} {whole : Bool}
    (h : bytes.length < 3 ∨ whole = false ∨
      ∃ kind len rest, bytes = kind :: len :: rest ∧ (60 < len.toNat ∨ rest.length ≠ len.toNat + 1)) :
    checkFrame bytes whole = .error .length := by
  match bytes with
  | [] | [_] => rfl
  | kind :: len :: rest =>
    refine if_pos ?_
    unfold Config.maxPayload
    simp only [Bool.or_eq_true, List.isEmpty_iff, decide_eq_true_eq, Bool.not_eq_true']
    rcases h with short | cut | ⟨kind, len, rest, same, wrong⟩
    · refine Or.inl (Or.inl (Or.inl (List.eq_nil_of_length_eq_zero ?_)))
      simp only [List.length_cons] at short
      omega
    · exact Or.inr cut
    · cases same
      rcases wrong with long | other
      · exact Or.inl (Or.inl (Or.inr long))
      · exact Or.inl (Or.inr other)

theorem kindOf_eq_none_iff (b : Byte) : kindOf b = none ↔ ∀ k : Kind, k.code ≠ b := by
  have every (k : Kind) : k ∈ allKinds := by cases k <;> decide
  unfold kindOf
  rw [List.find?_eq_none]
  exact ⟨fun h k => by simpa using h k (every k), fun h k _ => by simpa using h k⟩

/-- Settles O34: the subcode of the first check that fails. -/
theorem rejectedFramesReplyFrameError : Obligations.RejectedFramesReplyFrameError := by
  refine fun s l bytes whole takes => ⟨fun wrong => rejects_of_checkFrame takes (checkFrame_length wrong), ?_⟩
  rintro kind payload crc rfl fits rfl
  have checked := checkFrame_body kind crc fits
  refine ⟨fun wrong => rejects_of_checkFrame (c := .crc) takes (checked.trans (if_neg wrong)), fun right unknown => ?_⟩
  have none := (kindOf_eq_none_iff kind).mpr unknown
  exact rejects_of_checkFrame (c := .kind) takes ((checked.trans (if_pos right)).trans (by rw [none]; rfl))

/-! ### Frames that begin and end -/

/-- The command ends a frame of `n` bytes on link `l`. -/
def endsFrame (c : Instr) (l : Link) (n : ℕ) : Prop :=
  (∃ bytes w, c = .frameError l bytes w ∧ n = bytes.length) ∨ ∃ k payload, requestOf c = some (l, k, payload) ∧ n = payload.length + 3

theorem effectOf_endsFrame {c : Instr} {l : Link} {n : ℕ} (h : endsFrame c l n) :
    (∃ f, ∀ p, effectOf c p = (p.takeFrame l n f, [])) ∧ dueRowOf c = none ∧ c ≠ .fullReset := by
  rcases h with ⟨bytes, w, rfl, rfl⟩ | ⟨k, payload, request, rfl⟩
  · exact ⟨⟨_, fun p => rfl⟩, rfl, nofun⟩
  · exact ⟨⟨_, fun p => effectOf_request request p⟩, row_of_comesAtMark (comesAtMark_of_request request .reset)⟩

theorem Part.takeFrame_of_ignoring {p : Part} {l : Link} (released : p.held = false) (ignoring : (p.links.get l).rx = .ignoring)
    (n : ℕ) (f : Part → Part) : p.takeFrame l n f = p.endIgnored l := by
  unfold Part.takeFrame
  rw [released, ignoring]
  rfl

/-- Settles O32: the start of a frame by the receive logic, and its end with the bytes that data out has shifted. -/
theorem framesBeginAndIgnoredFramesEnd : Obligations.FramesBeginAndIgnoredFramesEnd := by
  rintro s l i due released rfl
  have started : effectOf (.frameStart l) s.part = (s.part.frameStart l, []) := rfl
  have ignored : effectOf (.ignoredFrameEnd l) s.part = (s.part.ignoredFrameEnd l, []) := rfl
  unfold Part.frameStart at started
  unfold Part.ignoredFrameEnd at ignored
  rw [released] at started ignored
  refine ⟨fun idle => ?_, fun other => ?_, fun taken => ?_, fun taken c n out ends hout => ?_, fun ignoring c ends => ?_⟩
  · rw [idle] at started
    exact leads_of_effect due rfl nofun started
  · refine exec_eq_self due rfl nofun (started.trans ?_)
    cases rx : (s.part.links.get l).rx with
    | idle => exact absurd rx other
    | inFrame => rfl
    | ignoring => rfl
  · refine exec_eq_self due rfl nofun (ignored.trans ?_)
    cases rx : (s.part.links.get l).rx with
    | ignoring => exact absurd rx taken
    | inFrame => rfl
    | idle => rfl
  · obtain ⟨⟨f, effect⟩, row, notReset⟩ := effectOf_endsFrame ends
    refine ⟨_, exec_idle due row notReset, ?_⟩
    have interface : ((effectOf c s.part).1.links.get l) = { ((f s.part).links.get l) with
        rx := .idle, shiftOut := none, lastOut := clockOut out n } := by
      rw [effect, Part.takeFrame_of_takes ⟨due, released, taken⟩, hout]
      exact Three.get_set_same ..
    dsimp only
    rw [interface]
    exact ⟨rfl, rfl, clockOut_length out n, fun j inside => clockOut_get out inside⟩
  · have led (h : effectOf c s.part = (s.part.endIgnored l, [])) (row : dueRowOf c = none) (notReset : c ≠ .fullReset) :
        Leads c s (s.part.endIgnored l) [] := leads_of_effect due row notReset h
    have frame {n : ℕ} (h : endsFrame c l n) : Leads c s (s.part.endIgnored l) [] := by
      obtain ⟨⟨f, effect⟩, row, notReset⟩ := effectOf_endsFrame h
      exact led ((effect _).trans (by rw [Part.takeFrame_of_ignoring released ignoring])) row notReset
    rcases ends with rfl | ⟨bytes, w, e⟩ | ⟨k, payload, request⟩
    · rw [ignoring] at ignored
      exact led ignored rfl nofun
    · exact frame (Or.inl ⟨bytes, w, e, rfl⟩)
    · exact frame (Or.inr ⟨k, payload, request, rfl⟩)

/-! ### Codes -/

theorem putS16_eq {x : ℤ} (low : -2 ^ 15 ≤ x) (high : x < 2 ^ 15) : putS16 x = put16 (if x < 0 then x + 2 ^ 16 else x).toNat := by
  have pattern : (BitVec.ofInt 16 x).toNat = (if x < 0 then x + 2 ^ 16 else x).toNat := by
    rw [BitVec.toNat_ofInt]
    split <;> omega
  rw [putS16, pattern]

theorem putS32_eq {x : ℤ} (low : -2 ^ 31 ≤ x) (high : x < 2 ^ 31) : putS32 x = put32 (if x < 0 then x + 2 ^ 32 else x).toNat := by
  have pattern : (BitVec.ofInt 32 x).toNat = (if x < 0 then x + 2 ^ 32 else x).toNat := by
    rw [BitVec.toNat_ofInt]
    split <;> omega
  rw [putS32, pattern]

theorem put16_toNat {n : ℕ} (h : n < 2 ^ 16) : (put16 n).map BitVec.toNat = [n / 2 ^ 8, n % 2 ^ 8] := by
  simp only [put16, List.map_cons, List.map_nil, BitVec.toNat_ofNat, List.cons.injEq, and_true]
  omega

theorem put32_toNat {n : ℕ} (h : n < 2 ^ 32) :
    (put32 n).map BitVec.toNat = [n / 2 ^ 24, n / 2 ^ 16 % 2 ^ 8, n / 2 ^ 8 % 2 ^ 8, n % 2 ^ 8] := by
  simp only [put32, put16, List.map_cons, List.map_nil, BitVec.toNat_ofNat, List.cons_append, List.nil_append,
    List.cons.injEq, and_true]
  omega

/-- Settles O36: the tables code by code, and the fields of replies. -/
theorem codesOfTheTables : Obligations.CodesOfTheTables := by
  refine ⟨by decide, kindOf_eq_none_iff, by decide, by decide, by decide, by decide, by decide, by decide, by decide, by decide,
    ⟨rfl, fun _ => rfl, rfl, fun _ => rfl, fun _ => rfl⟩, fun n h => ?_, fun n => put16_toNat, fun n => put32_toNat,
    fun x => putS16_eq, fun x => putS32_eq⟩
  simp only [put8, List.map_cons, List.map_nil, BitVec.toNat_ofNat, Nat.mod_eq_of_lt h]

/-! ### LINK_RESET -/

theorem clockedOut_request {s : State} {c : Instr} {l : Link} {k : Kind} {payload : List Byte}
    (h : requestOf c = some (l, k, payload)) : s.clockedOut l c = (s.part.links.get l).clockedOut (payload.length + 3) := by
  rw [State.clockedOut, clocked_request h]

theorem exec_linkReset {s : State} {l : Link} (takes : s.takes l) :
    exec (.linkReset l []) s =
      .next { s with part := (s.part.linkResetReq l []).endFrame l (s.clockedOut l (.linkReset l [])) } := by
  rw [clockedOut_request (k := .linkReset) (payload := []) rfl]
  exact congrArg _ (State.run_request takes [] _ (by decide))

/-- Settles O39: the link's interface after the reset and the end of its frame. -/
theorem linkResetClearsLink : Obligations.LinkResetClearsLink := by
  rintro s l takes i rfl
  refine ⟨?_, ?_, fun payload some fits => refuses_of_eq takes fits rfl rfl (if_neg (by simpa using some))⟩
  · rintro m rfl
    rw [exec_linkReset takes]
    simp only [Part.linkResetReq, List.isEmpty_nil, if_true, Motion.link_motion, Part.endFrame, Part.modLink, Three.get_set_same,
      Three.set_set]
    rfl
  · rintro rfl
    rw [exec_linkReset takes]
    rfl

end Sys2Proof.Machine

/-! SUPPORT. Requests refused for their link or for the structure of their payload. -/

namespace Sys2Proof.Machine

/-! ### The link -/

theorem link_cases (l : Link) : l = .s ∨ ∃ m : Motion, l = m.link := by
  cases l with
  | a => exact Or.inr ⟨.a, rfl⟩
  | b => exact Or.inr ⟨.b, rfl⟩
  | s => exact Or.inl rfl

@[simp] theorem Link.motion_s : Link.motion .s = none := rfl

/-- A PARAM of any payload on Link S. -/
theorem Part.anyParamReq_s (p : Part) (payload : List Byte) : p.anyParamReq .s payload = p.refuse .s .param .wrongLink := by
  unfold Part.anyParamReq
  split
  · split_ifs <;> rfl
  · rfl

theorem Part.anySetReq_s (p : Part) (payload : List Byte) : p.anySetReq .s payload = p.refuse .s .set .wrongLink := by
  unfold Part.anySetReq
  split <;> rfl

theorem judgeKind_wrongLink {k : Kind} {l : Link} (h : k.inSetOf l = false) (p : Part) (payload : List Byte) :
    p.judgeKind l k payload = p.refuse l k .wrongLink := by
  rcases link_cases l with rfl | ⟨m, rfl⟩
  · cases k with
    | nop | linkReset | status | events | read | ack => cases h
    | budget | bus | classes | ceiling | timing | slot | withdraw | restore | edgeClear | revoke => cases h
    | param => exact p.anyParamReq_s payload
    | set => exact p.anySetReq_s payload
    | _ => rfl
  · simp only [Kind.inSetOf, Motion.link_motion, Option.isSome_some, Option.isNone_some] at h
    cases k with
    | nop | linkReset | status | events | read | ack => cases h
    | claim | release | map | unmap | param | enable | disable | set | discard => cases h
    | _ =>
      simp only [Part.judgeKind, Part.budgetReq, Part.busReq, Part.classReq, Part.ceilingReq, Part.timingReq, Part.slotReq,
        Part.withdrawReq, Part.restoreReq, Part.edgeClearReq, Part.revokeReq, Part.onSupervisor_link]

/-! ### The structure -/

/-- The fields of a PARAM cannot be read: no channel and group, a channel index out of range, no group of the six, or fields of
another length than the group's. -/
def paramUnread : List Byte → Prop
  | c :: g :: f => channelOf c = none ∨ (g = 1 → senseFields f = none) ∧ (g = 2 → trackFields f = none) ∧
      (g = 3 → loopFields f = none) ∧ (g = 4 → limitsFields f = none) ∧ (g = 5 → protectFields f = none) ∧
      (g = 6 → holdFields f = none)
  | _ => True

/-- The payload of a request of kind `k` on a link of its set cannot be read. -/
def Kind.unread (k : Kind) (l : Link) (payload : List Byte) : Prop :=
  match k with
  | .nop => False
  | .linkReset | .status | .events | .discard | .edgeClear => payload ≠ []
  | .read => onlyChannel payload = none
  | .ack => if l.motion.isSome then onlySlot payload = none else onlyMask payload = none
  | .claim | .release | .revoke | .withdraw | .restore => onlyMask payload = none
  | .unmap | .enable | .disable => onlySlot payload = none
  | .map => mapFields payload = none
  | .param => paramUnread payload
  | .set => payload = []
  | .ceiling => ceilingFields payload = none
  | .timing => timingFields payload = none
  | .slot => slotFields payload = none
  | .bus => busFields payload = none
  | .budget => budgetFields payload = none
  | .classes => classFields payload = none

theorem Part.paramReq_of_none {α : Type} (p : Part) (m : Motion) {ch : Byte} {fields : Option α}
    (store : Channel → α → Part → Part) (h : channelOf ch = none ∨ fields = none) :
    p.paramReq m.link ch fields store = p.refuse m.link .param .badValue := by
  unfold Part.paramReq
  rw [Part.onMotion_link]
  rcases h with h | h
  · rw [h]
  · rw [h]
    split
    · next e => cases e
    · rfl

theorem Part.anyParamReq_of_unread (p : Part) (m : Motion) {payload : List Byte} (h : paramUnread payload) :
    p.anyParamReq m.link payload = p.refuse m.link .param .badValue := by
  have refused : p.onMotion m.link .param (fun _ p => p.refuse m.link .param .badValue) = p.refuse m.link .param .badValue :=
    Part.onMotion_link ..
  unfold Part.anyParamReq
  split
  · next c g f =>
    split_ifs with g1 g2 g3 g4 g5 g6
    · exact p.paramReq_of_none m _ (h.imp_right fun fields => fields.1 g1)
    · exact p.paramReq_of_none m _ (h.imp_right fun fields => fields.2.1 g2)
    · exact p.paramReq_of_none m _ (h.imp_right fun fields => fields.2.2.1 g3)
    · exact p.paramReq_of_none m _ (h.imp_right fun fields => fields.2.2.2.1 g4)
    · exact p.paramReq_of_none m _ (h.imp_right fun fields => fields.2.2.2.2.1 g5)
    · exact p.paramReq_of_none m _ (h.imp_right fun fields => fields.2.2.2.2.2 g6)
    · exact refused
  · exact refused

/-- A request of the link's set whose payload cannot be read is refused with BAD_VALUE. -/
theorem judgeKind_badValue {k : Kind} {l : Link} {payload : List Byte} (set : k.inSetOf l = true) (h : k.unread l payload) (p : Part) :
    p.judgeKind l k payload = p.refuse l k .badValue := by
  rcases link_cases l with rfl | ⟨m, rfl⟩
  · cases k with
    | claim | release | map | unmap | param | enable | disable | set | discard => cases set
    | nop => exact absurd h id
    | linkReset | status | events => exact if_neg (by simpa [Kind.unread] using h)
    | edgeClear => exact if_pos (by simpa [Kind.unread] using h)
    | read => simp only [Part.judgeKind, Part.readReq, show onlyChannel payload = none from h]
    | ack => simp only [Part.judgeKind, Part.ackReq, Link.motion_s, show onlyMask payload = none from h]
    | withdraw => simp only [Part.judgeKind, Part.withdrawReq, Part.onSupervisor_s, show onlyMask payload = none from h]
    | restore => simp only [Part.judgeKind, Part.restoreReq, Part.onSupervisor_s, show onlyMask payload = none from h]
    | revoke => simp only [Part.judgeKind, Part.revokeReq, Part.onSupervisor_s, show onlyMask payload = none from h]
    | ceiling => simp only [Part.judgeKind, Part.ceilingReq, Part.onSupervisor_s, show ceilingFields payload = none from h]
    | timing => simp only [Part.judgeKind, Part.timingReq, Part.onSupervisor_s, show timingFields payload = none from h]
    | slot => simp only [Part.judgeKind, Part.slotReq, Part.onSupervisor_s, show slotFields payload = none from h]
    | bus => simp only [Part.judgeKind, Part.busReq, Part.onSupervisor_s, show busFields payload = none from h]
    | budget => simp only [Part.judgeKind, Part.budgetReq, Part.onSupervisor_s, show budgetFields payload = none from h]
    | classes => simp only [Part.judgeKind, Part.classReq, Part.onSupervisor_s, show classFields payload = none from h]
  · simp only [Kind.inSetOf, Motion.link_motion, Option.isNone_some] at set
    cases k with
    | budget | bus | classes | ceiling | timing | slot | withdraw | restore | edgeClear | revoke => cases set
    | nop => exact absurd h id
    | linkReset | status | events => exact if_neg (by simpa [Kind.unread] using h)
    | discard =>
      simp only [Part.judgeKind, Part.discardReq, Part.onMotion_link]
      exact if_neg (by simpa [Kind.unread] using h)
    | read => simp only [Part.judgeKind, Part.readReq, show onlyChannel payload = none from h]
    | ack =>
      have h : onlySlot payload = none := by simpa [Kind.unread] using h
      simp only [Part.judgeKind, Part.ackReq, Motion.link_motion, h]
    | claim => simp only [Part.judgeKind, Part.claimReq, Part.onMotion_link, show onlyMask payload = none from h]
    | release => simp only [Part.judgeKind, Part.releaseReq, Part.onMotion_link, show onlyMask payload = none from h]
    | map => simp only [Part.judgeKind, Part.mapReq, Part.onMotion_link, show mapFields payload = none from h]
    | unmap => simp only [Part.judgeKind, Part.unmapReq, Part.onMotion_link, show onlySlot payload = none from h]
    | enable => simp only [Part.judgeKind, Part.enableReq, Part.onMotion_link, show onlySlot payload = none from h]
    | disable => simp only [Part.judgeKind, Part.disableReq, Part.onMotion_link, show onlySlot payload = none from h]
    | param => exact p.anyParamReq_of_unread m h
    | set =>
      obtain rfl : payload = [] := h
      cases m <;> rfl

/-! ### What the lengths and the bytes of a payload leave unread -/

theorem onlyChannel_of_length {payload : List Byte} (h : payload.length ≠ 1) : onlyChannel payload = none := by
  unfold onlyChannel
  split
  · exact absurd rfl h
  · rfl

theorem onlySlot_of_length {payload : List Byte} (h : payload.length ≠ 1) : onlySlot payload = none := by
  unfold onlySlot
  split
  · exact absurd rfl h
  · rfl

theorem onlyMask_of_length {payload : List Byte} (h : payload.length ≠ 1) : onlyMask payload = none := by
  unfold onlyMask
  split
  · exact absurd rfl h
  · rfl

theorem senseFields_of_length {payload : List Byte} (h : payload.length ≠ 6) : senseFields payload = none := by
  unfold senseFields
  split
  · exact absurd rfl h
  · rfl

theorem trackFields_of_length {payload : List Byte} (h : payload.length ≠ 5) : trackFields payload = none := by
  unfold trackFields
  split
  · exact absurd rfl h
  · rfl

theorem loopFields_of_length {payload : List Byte} (h : payload.length ≠ 8) : loopFields payload = none := by
  unfold loopFields
  split
  · exact absurd rfl h
  · rfl

theorem limitsFields_of_length {payload : List Byte} (h : payload.length ≠ 10) : limitsFields payload = none := by
  unfold limitsFields
  split
  · exact absurd rfl h
  · rfl

theorem protectFields_of_length {payload : List Byte} (h : payload.length ≠ 6) : protectFields payload = none := by
  unfold protectFields
  split
  · exact absurd rfl h
  · rfl

theorem holdFields_of_length {payload : List Byte} (h : payload.length ≠ 5) : holdFields payload = none := by
  unfold holdFields
  split
  · exact absurd rfl h
  · rfl

theorem ceilingFields_of_length {payload : List Byte} (h : payload.length ≠ 5) : ceilingFields payload = none := by
  unfold ceilingFields
  split
  · exact absurd rfl h
  · rfl

theorem timingFields_of_length {payload : List Byte} (h : payload.length ≠ 5) : timingFields payload = none := by
  unfold timingFields
  split
  · exact absurd rfl h
  · rfl

theorem slotFields_of_length {payload : List Byte} (h : payload.length ≠ 2) : slotFields payload = none := by
  unfold slotFields
  split
  · exact absurd rfl h
  · rfl

theorem busFields_of_length {payload : List Byte} (h : payload.length ≠ 9) : busFields payload = none := by
  unfold busFields
  split
  · exact absurd rfl h
  · rfl

theorem budgetFields_of_length {payload : List Byte} (h : payload.length ≠ 20) : budgetFields payload = none := by
  unfold budgetFields
  split
  · exact absurd rfl h
  · rfl

theorem mapFields_of_length {payload : List Byte} (h : ¬(payload.length = 3 ∨ payload.length = 5)) : mapFields payload = none := by
  unfold mapFields
  split
  · exact absurd (Or.inl rfl) h
  · exact absurd (Or.inr rfl) h
  · rfl

theorem classEntries_cons {c k r1 r0 : Byte} {rest : List Byte} {es : List ClassEntry}
    (h : classEntries (c :: k :: r1 :: r0 :: rest) = some es) :
    ∃ ch tail, channelOf c = some ch ∧ classEntries rest = some tail ∧
      es = { ch := ch, cls := k.toNat, reserve := u16 r1 r0 } :: tail := by
  unfold classEntries at h
  split at h
  · next ch tail channel found => exact ⟨ch, tail, channel, found, (Option.some.inj h).symm⟩
  · cases h

theorem classEntries_length {payload : List Byte} {es : List ClassEntry} (h : classEntries payload = some es) :
    payload.length = 4 * es.length := by
  match payload with
  | [] => cases h; rfl
  | [_] | [_, _] | [_, _, _] => cases h
  | c :: k :: r1 :: r0 :: rest =>
    obtain ⟨ch, tail, -, found, rfl⟩ := classEntries_cons h
    have := classEntries_length found
    simp only [List.length_cons]
    omega

theorem classFields_of_length {payload : List Byte}
    (h : ¬(payload.length % 4 = 0 ∧ 4 ≤ payload.length ∧ payload.length ≤ 24)) : classFields payload = none := by
  unfold classFields
  split
  · next es found =>
    have length := classEntries_length found
    refine if_neg ?_
    simp only [Bool.and_eq_true, decide_eq_true_eq]
    omega
  · rfl

/-- A payload of a length that does not fit its kind. -/
theorem unread_of_length {k : Kind} {l : Link} {payload : List Byte} (h : k.fitsLength payload = false) : k.unread l payload := by
  cases k with
  | nop => cases h
  | linkReset | status | events | discard | edgeClear => simpa [Kind.fitsLength, Kind.unread] using h
  | read => exact onlyChannel_of_length (by simpa [Kind.fitsLength] using h)
  | claim | release | revoke | withdraw | restore => exact onlyMask_of_length (by simpa [Kind.fitsLength] using h)
  | unmap | enable | disable => exact onlySlot_of_length (by simpa [Kind.fitsLength] using h)
  | ack =>
    have other : payload.length ≠ 1 := by simpa [Kind.fitsLength] using h
    unfold Kind.unread
    dsimp only
    split
    · exact onlySlot_of_length other
    · exact onlyMask_of_length other
  | map => exact mapFields_of_length (by simpa [Kind.fitsLength] using h)
  | set => simpa [Kind.fitsLength, Kind.unread] using h
  | classes => exact classFields_of_length (by simpa [Kind.fitsLength] using h)
  | ceiling => exact ceilingFields_of_length (by simpa [Kind.fitsLength] using h)
  | timing => exact timingFields_of_length (by simpa [Kind.fitsLength] using h)
  | slot => exact slotFields_of_length (by simpa [Kind.fitsLength] using h)
  | bus => exact busFields_of_length (by simpa [Kind.fitsLength] using h)
  | budget => exact budgetFields_of_length (by simpa [Kind.fitsLength] using h)
  | param =>
    match payload with
    | [] | [_] => trivial
    | c :: g :: f =>
      simp only [Kind.fitsLength, decide_eq_false_iff_not] at h
      refine Or.inr ⟨?_, ?_, ?_, ?_, ?_, ?_⟩
      · rintro rfl; exact senseFields_of_length h
      · rintro rfl; exact trackFields_of_length h
      · rintro rfl; exact loopFields_of_length h
      · rintro rfl; exact limitsFields_of_length h
      · rintro rfl; exact protectFields_of_length h
      · rintro rfl; exact holdFields_of_length h

theorem channelOf_eq_none {b : Byte} (h : 6 ≤ b.toNat) : channelOf b = none := dif_neg (not_lt.mpr h)

theorem linkSlotOf_eq_none {b : Byte} (h : 4 ≤ b.toNat) : linkSlotOf b = none := dif_neg (not_lt.mpr h)

theorem maskOf_eq_none {b : Byte} (h : 64 ≤ b.toNat) : maskOf b = none := if_neg (not_lt.mpr h)

theorem memberOf_eq_none {b r : Byte} (h : 6 ≤ b.toNat) : memberOf b r = none := by
  rw [memberOf, channelOf_eq_none h]
  rfl

theorem onlyMask_of_first {b : Byte} (h : 64 ≤ b.toNat) (rest : List Byte) : onlyMask (b :: rest) = none := by
  cases rest with
  | nil => exact maskOf_eq_none h
  | cons => rfl

theorem onlySlot_of_first {b : Byte} (h : 4 ≤ b.toNat) (rest : List Byte) : onlySlot (b :: rest) = none := by
  cases rest with
  | nil => exact linkSlotOf_eq_none h
  | cons => rfl

theorem onlyChannel_of_first {b : Byte} (h : 6 ≤ b.toNat) (rest : List Byte) : onlyChannel (b :: rest) = none := by
  cases rest with
  | nil => exact channelOf_eq_none h
  | cons => rfl

theorem mapFields_of_first {b : Byte} (h : 4 ≤ b.toNat) (rest : List Byte) : mapFields (b :: rest) = none := by
  match rest with
  | [c1, r1] => simp only [mapFields, linkSlotOf_eq_none h]
  | [c1, r1, c2, r2] => simp only [mapFields, linkSlotOf_eq_none h]
  | [] | [_] | [_, _, _] | _ :: _ :: _ :: _ :: _ :: _ => rfl

theorem ceilingFields_of_first {b : Byte} (h : 6 ≤ b.toNat) (rest : List Byte) : ceilingFields (b :: rest) = none := by
  match rest with
  | [i1, i0, k1, k0] => simp only [ceilingFields, channelOf_eq_none h, Option.map_none]
  | [] | [_] | [_, _] | [_, _, _] | _ :: _ :: _ :: _ :: _ :: _ => rfl

theorem slotFields_of_first {b : Byte} (h : 6 ≤ b.toNat) (rest : List Byte) : slotFields (b :: rest) = none := by
  match rest with
  | [k] => simp only [slotFields, channelOf_eq_none h, Option.map_none]
  | [] | _ :: _ :: _ => rfl

/-- A channel above 5 in entry `n` of a CLASS. -/
theorem classEntries_of_channel {b : Byte} (h : 6 ≤ b.toNat) (n : ℕ) {payload : List Byte} (at_n : payload[4 * n]? = some b) :
    classEntries payload = none := by
  induction n generalizing payload with
  | zero =>
    match payload with
    | [] => cases at_n
    | [_] | [_, _] | [_, _, _] => rfl
    | c :: k :: r1 :: r0 :: rest =>
      obtain rfl : c = b := by simpa using at_n
      unfold classEntries
      rw [channelOf_eq_none h]
  | succ n ih =>
    match payload with
    | [] => cases at_n
    | [_] | [_, _] | [_, _, _] => rfl
    | c :: k :: r1 :: r0 :: rest =>
      have tail : classEntries rest = none := ih (by simpa [Nat.mul_succ] using at_n)
      unfold classEntries
      rw [tail]
      split
      · next e => cases e
      · rfl

theorem classFields_of_channel {b : Byte} (h : 6 ≤ b.toNat) {n : ℕ} {payload : List Byte} (at_n : payload[4 * n]? = some b) :
    classFields payload = none := by
  rw [classFields, classEntries_of_channel h n at_n]

/-- A payload whose first byte is out of range for its kind. -/
theorem unread_of_first {k : Kind} {l : Link} {b : Byte} {rest : List Byte} (h : k.fitsFirst l b = false) : k.unread l (b :: rest) := by
  cases k with
  | nop | linkReset | status | events | discard | edgeClear | set | timing | bus | budget => cases h
  | read => exact onlyChannel_of_first (by simpa [Kind.fitsFirst] using h) rest
  | ceiling => exact ceilingFields_of_first (by simpa [Kind.fitsFirst] using h) rest
  | slot => exact slotFields_of_first (by simpa [Kind.fitsFirst] using h) rest
  | classes => exact classFields_of_channel (n := 0) (b := b) (by simpa [Kind.fitsFirst] using h) rfl
  | param =>
    cases rest with
    | nil => trivial
    | cons => exact Or.inl (channelOf_eq_none (by simpa [Kind.fitsFirst] using h))
  | map => exact mapFields_of_first (by simpa [Kind.fitsFirst] using h) rest
  | unmap | enable | disable => exact onlySlot_of_first (by simpa [Kind.fitsFirst] using h) rest
  | claim | release | revoke | withdraw | restore => exact onlyMask_of_first (by simpa [Kind.fitsFirst] using h) rest
  | ack =>
    unfold Kind.fitsFirst at h
    unfold Kind.unread
    dsimp only at h ⊢
    split
    · next motion => rw [if_pos motion] at h; exact onlySlot_of_first (by simpa [Kind.unread] using h) rest
    · next supervisor => rw [if_neg supervisor] at h; exact onlyMask_of_first (by simpa [Kind.unread] using h) rest

theorem mapFields_of_member {b : Byte} (h : 6 ≤ b.toNat) {n : ℕ} {payload : List Byte} (place : n = 1 ∨ n = 3)
    (at_n : payload[n]? = some b) : mapFields payload = none := by
  match payload with
  | [k, c1, r1] =>
    rcases place with rfl | rfl
    · obtain rfl : c1 = b := by simpa using at_n
      simp only [mapFields, memberOf_eq_none h]
      cases linkSlotOf k <;> rfl
    · cases at_n
  | [k, c1, r1, c2, r2] =>
    rcases place with rfl | rfl
    · obtain rfl : c1 = b := by simpa using at_n
      simp only [mapFields, memberOf_eq_none h]
      cases linkSlotOf k <;> rfl
    · obtain rfl : c2 = b := by simpa using at_n
      simp only [mapFields, memberOf_eq_none h]
      cases linkSlotOf k with
      | none => rfl
      | some _ => cases memberOf c1 r1 <;> rfl
  | [] | [_] | [_, _] | [_, _, _, _] | _ :: _ :: _ :: _ :: _ :: _ :: _ => rfl

/-- Settles O37: the judgement of each kind finds the wrong link first and the payload it cannot read next. -/
theorem wrongLinksAndStructuresRefused : Obligations.WrongLinksAndStructuresRefused := by
  intro c s l k payload given fits takes
  have spelled : spells c l k payload := given
  refine ⟨fun other => refuses_of_judge spelled fits takes (judgeKind_wrongLink other _ _), fun set => ?_⟩
  have refused (h : k.unread l payload) : Refuses c s l k .badValue :=
    refuses_of_judge spelled fits takes (judgeKind_badValue set h _)
  refine ⟨fun length => refused (unread_of_length length), ?_, ?_, ?_, ?_⟩
  · rintro b rest rfl first
    exact refused (unread_of_first first)
  · rintro ch g f rfl rfl unknown
    have differs (n : ℕ) (low : 1 ≤ n) (high : n ≤ 6) : g ≠ BitVec.ofNat 8 n := by
      rintro rfl
      rw [BitVec.toNat_ofNat, Nat.mod_eq_of_lt (by omega)] at unknown
      omega
    exact refused (Or.inr ⟨fun e => absurd e (differs 1 (by omega) (by omega)), fun e => absurd e (differs 2 (by omega) (by omega)),
      fun e => absurd e (differs 3 (by omega) (by omega)), fun e => absurd e (differs 4 (by omega) (by omega)),
      fun e => absurd e (differs 5 (by omega) (by omega)), fun e => absurd e (differs 6 (by omega) (by omega))⟩)
  · rintro n b rfl place at_n out
    exact refused (mapFields_of_member out place at_n)
  · rintro n b rfl at_n out
    exact refused (classFields_of_channel out at_n)

end Sys2Proof.Machine

/-! SUPPORT. The settings of Link S: TIMING, SLOT, BUS, BUDGET and CLASS. -/

namespace Sys2Proof.Machine

/-! ### Fields as their bytes carry them -/

theorem byte_toNat {n : ℕ} (h : n < 256) : (BitVec.ofNat 8 n).toNat = n := by
  rw [BitVec.toNat_ofNat]
  exact Nat.mod_eq_of_lt h

theorem clampN_zero (hi x : ℕ) : clampN 0 hi x = min hi x := Nat.zero_max _

theorem timingFields_put {p w n : ℕ} (hp : p < 65536) (hw : w < 65536) (hn : n < 256) :
    timingFields (put16 p ++ put16 w ++ put8 n) =
      some { period := max 2400 (min 24000 (p / 12 * 12)), blank := min 600 w, divider := max 1 (min 16 n) } := by
  simp only [put16, put8, List.cons_append, List.nil_append, timingFields, u16_put16 hp, u16_put16 hw, byte_toNat hn, clampN_zero]
  rfl

theorem slotFields_ofNat (c : Channel) (kb : Byte) {k : CarrierSlot} (hk : k.val = min kb.toNat 5) :
    slotFields [BitVec.ofNat 8 c.val, kb] = some (c, k) := by
  simp only [slotFields, channelOf_ofNat, Option.map_some]
  exact congrArg (fun j => some (c, j)) (Fin.ext hk.symm)

theorem busFields_put {gv ov uv uvh nuv : ℕ} (hgv : gv < 65536) (hov : ov < 65536) (huv : uv < 65536) (huvh : uvh < 65536)
    (hnuv : nuv < 256) :
    busFields (put16 gv ++ put16 ov ++ put16 uv ++ put16 uvh ++ put8 nuv) =
      some { gv := gv, ov := min 9000 ov, uv := min 9000 uv, uvh := min 1000 uvh, nuv := max 1 (min 15 nuv) } := by
  simp only [put16, put8, List.cons_append, List.nil_append, busFields, u16_put16 hgv, u16_put16 hov, u16_put16 huv,
    u16_put16 huvh, byte_toNat hnuv, clampN_zero]
  rfl

theorem budgetFields_put {f r c k h : ℕ} (hf : f < 2 ^ 32) (hr : r < 2 ^ 32) (hc : c < 2 ^ 32) (hk : k < 2 ^ 32) (hh : h < 2 ^ 32) :
    budgetFields (put32 f ++ put32 r ++ put32 c ++ put32 k ++ put32 h) =
      some { feed := min 400000 f, regen := min 400000 r, cap := min 200000 c, cool := min 200000 k, hmax := min 2147483648 h } := by
  simp only [put32, put16, List.cons_append, List.nil_append, budgetFields, u32_put32 hf, u32_put32 hr, u32_put32 hc,
    u32_put32 hk, u32_put32 hh, clampN_zero]
  rfl

/-! ### TIMING and SLOT -/

theorem Part.anyActive_iff (p : Part) : p.anyActive = true ↔ ∃ c, (p.stateOf c).active = true := by
  rw [Part.anyActive, List.any_eq_true]
  exact ⟨fun ⟨c, _, active⟩ => ⟨c, active⟩, fun ⟨c, active⟩ => ⟨c, mem_channels c, active⟩⟩

/-- A TIMING that is not refused: the period that the next frame mark brings is the one it asks for. -/
theorem Part.timingReq_of_fields {p : Part} {payload : List Byte} {t : TimingFields} (fields : timingFields payload = some t) :
    ((t.period ≠ p.carrier.comingPeriod ∧ ∃ c, (p.stateOf c).active = true) →
      p.timingReq .s payload = p.refuse .s .timing .notAllOff) ∧
    ((t.period = p.carrier.comingPeriod ∨ ∀ c, (p.stateOf c).active = false) →
      p.timingReq .s payload = ({ p with carrier := { p.carrier with
        pendingP := if t.period = p.carrier.comingPeriod then p.carrier.pendingP else some t.period
        blank := t.blank, divider := t.divider, syncCount := 0 } } : Part).done .s .timing
          (put16 t.period ++ put16 t.blank ++ put8 t.divider)) := by
  simp only [Part.timingReq, Part.onSupervisor_s, fields]
  refine ⟨fun ⟨change, active⟩ => if_pos ?_, fun free => (if_neg ?_).trans ?_⟩
  · rw [decide_eq_true change, p.anyActive_iff.mpr active]
    rfl
  · simp only [Bool.and_eq_true, decide_eq_true_eq, p.anyActive_iff]
    rintro ⟨change, c, active⟩
    rcases free with same | quiet
    · exact change same
    · rw [quiet c] at active; cases active
  · by_cases same : t.period = p.carrier.comingPeriod
    · rw [Carrier.comingPeriod] at same
      simp [same, Carrier.comingPeriod]
    · rw [Carrier.comingPeriod] at same
      simp [same, Carrier.comingPeriod]

/-- Settles O52: the fields as the bytes carry them, then the checks on the states. -/
theorem timingAndSlotWaitForFrameMark : Obligations.TimingAndSlotWaitForFrameMark := by
  refine ⟨?_, ?_⟩
  · rintro s p w n P W N payload takes hp hw hn rfl rfl rfl rfl
    obtain ⟨refused, done⟩ := Part.timingReq_of_fields (p := s.part) (timingFields_put hp hw hn)
    exact ⟨fun h => refuses_of_eq takes (by simp) rfl rfl (refused h), fun h => does_of_eq takes (by simp) rfl rfl (done h)⟩
  · rintro s c kb j k t t' takes rfl sound hk at_j rfl
    have fields := slotFields_ofNat c kb hk
    refine ⟨fun active => refuses_of_eq takes (by simp) rfl rfl ?_, fun ⟨quiet, quiet'⟩ => ⟨does_of_eq takes (by simp) rfl rfl ?_, ?_⟩⟩
    · simp only [Part.slotReq, Part.onSupervisor_s, fields]
      exact if_pos (by rw [Bool.or_eq_true]; exact active)
    · simp only [Part.slotReq, Part.onSupervisor_s, fields, ← swapInto_eq sound k at_j]
      exact (if_neg (by rw [Bool.or_eq_true, quiet, Carrier.comingTable, quiet']; decide)).trans rfl
    · rw [← swapInto_eq sound k at_j]
      exact swapInto_sound sound c k

/-! ### BUS, BUDGET and CLASS -/

/-- An entry of a CLASS with its three fields as a master gives them. -/
def classEntry (e : Channel × ℕ × ℕ) : ClassEntry := { ch := e.1, cls := e.2.1, reserve := e.2.2 }

theorem classEntries_put (es : List (Channel × ℕ × ℕ)) (fits : ∀ e ∈ es, e.2.1 < 256 ∧ e.2.2 < 65536) :
    classEntries (es.flatMap (fun e => put8 e.1.val ++ put8 e.2.1 ++ put16 e.2.2)) = some (es.map classEntry) := by
  induction es with
  | nil => rfl
  | cons e es ih =>
    obtain ⟨⟨hc, hr⟩, rest⟩ := List.forall_mem_cons.mp fits
    rw [List.flatMap_cons]
    simp only [put8, put16, List.cons_append, List.nil_append] at ih ⊢
    rw [classEntries, ih rest, channelOf_ofNat, u16_put16 hr, byte_toNat hc]
    rfl

theorem classFields_put {es : List (Channel × ℕ × ℕ)} (fits : ∀ e ∈ es, e.2.1 < 256 ∧ e.2.2 < 65536) (low : 1 ≤ es.length)
    (high : es.length ≤ 6) :
    classFields (es.flatMap (fun e => put8 e.1.val ++ put8 e.2.1 ++ put16 e.2.2)) = some (es.map classEntry) := by
  rw [classFields, classEntries_put es fits]
  refine if_pos ?_
  rw [List.length_map, decide_eq_true low, decide_eq_true high]
  rfl

/-- The values that a CLASS gives the channels: of the entry that names the channel, else as they were. -/
def Bus.classed (b : Bus) (es : List (Channel × ℕ × ℕ)) : Bus :=
  { b with
    cls := .ofFn (fun c => ((es.find? (fun e => e.1 = c)).map (fun e => min 3 e.2.1)).getD (b.cls.get c))
    reserve := .ofFn (fun c => ((es.find? (fun e => e.1 = c)).map (fun e => e.2.2)).getD (b.reserve.get c)) }

/-- Entries that name different channels store what a search for each channel finds. -/
theorem foldl_storeClass (es : List (Channel × ℕ × ℕ)) (nodup : (es.map (fun e => e.1)).Nodup) (fits : ∀ e ∈ es, e.2.2 < 65536)
    (b : Bus) : (es.map classEntry).foldl Bus.storeClass b = b.classed es := by
  induction es generalizing b with
  | nil =>
    have same {α : Type} (v : Six α) : v = .ofFn (fun c => v.get c) := Six.ext_get fun c => (Six.get_ofFn _ c).symm
    exact congrArg₂ (fun x y => { b with cls := x, reserve := y }) (same b.cls) (same b.reserve)
  | cons e es ih =>
    obtain ⟨other, nodup⟩ := List.nodup_cons.mp nodup
    obtain ⟨hr, fits⟩ := List.forall_mem_cons.mp fits
    have absent : es.find? (fun e' => e'.1 = e.1) = none := by
      rw [List.find?_eq_none]
      exact fun e' mem => by simpa using fun same => other (List.mem_map.mpr ⟨e', mem, same⟩)
    have reserve : clampN 0 65535 e.2.2 = e.2.2 := by rw [clampN_zero]; omega
    rw [List.map_cons, List.foldl_cons, ih nodup fits]
    unfold Bus.classed
    refine congrArg₂ (fun x y => { b with cls := x, reserve := y }) (Six.ext_get fun c => ?_) (Six.ext_get fun c => ?_)
    all_goals
      rw [Six.get_ofFn, Six.get_ofFn, List.find?_cons]
      by_cases here : e.1 = c
      · subst here
        simp [absent, Bus.storeClass, classEntry, clampN_zero, reserve]
      · simp [here, Bus.storeClass, classEntry, Six.get_set]

/-- Settles O53: the fields as the bytes carry them, stored. -/
theorem busBudgetClassStoreFields : Obligations.BusBudgetClassStoreFields := by
  refine ⟨?_, ?_, ?_⟩
  · intro s gv ov uv uvh nuv takes hgv hov huv huvh hnuv
    refine does_of_eq takes (by simp) rfl rfl ?_
    simp only [Part.busReq, Part.onSupervisor_s, busFields_put hgv hov huv huvh hnuv]
  · intro s f r c k h takes hf hr hc hk hh
    refine does_of_eq takes (by simp) rfl rfl ?_
    simp only [Part.budgetReq, Part.onSupervisor_s, budgetFields_put hf hr hc hk hh]
  · rintro s es payload b takes low high fits rfl rfl
    have fields := classFields_put fits low high
    have length : (es.flatMap (fun e => put8 e.1.val ++ put8 e.2.1 ++ put16 e.2.2)).length ≤ 60 :=
      (length_flatMap_le _ 4 es fun _ _ => by simp).trans (by omega)
    have chans : (es.map classEntry).map (fun e => e.ch) = es.map (fun e => e.1) := by rw [List.map_map]; rfl
    refine ⟨fun twice => refuses_of_eq takes length rfl rfl ?_, fun nodup => does_of_eq takes length rfl rfl ?_⟩
    · simp only [Part.classReq, Part.onSupervisor_s, fields, chans]
      exact if_pos (by simpa using twice)
    · simp only [Part.classReq, Part.onSupervisor_s, fields, chans, foldl_storeClass es nodup (fun e mem => (fits e mem).2)]
      exact (if_neg (by simpa using nodup)).trans rfl

end Sys2Proof.Machine

/-! SUPPORT. The requests of the fault and event unit: STATUS, READ, EVENTS and ACK. -/

namespace Sys2Proof.Machine

/-! ### Codes of cause sets -/

/-- The byte of a cause set as the sum over the causes in order of priority. -/
theorem CauseSet.code_eq (x : CauseSet) : x.code = (causesByPriority.map (fun c => bit (x.has c) * 2 ^ (c.priority - 1))).sum := by
  simp only [CauseSet.code, causesByPriority, List.map_cons, List.map_nil, List.sum_cons, List.sum_nil, CauseSet.has, Cause.priority]
  omega

theorem CauseSet.topCode_eq (x : CauseSet) :
    x.topCode = ((causesByPriority.find? (fun c => x.has c)).map Cause.priority).getD 0 := by
  unfold CauseSet.topCode CauseSet.top
  cases causesByPriority.find? (fun c => x.has c) <;> rfl

/-! ### STATUS -/

/-- Seen sets of one link set for several channels, to values that seen sets do not bear on. -/
theorem Part.forChannels_setSeen (l : Link) (x : Part → Channel → CauseSet)
    (steady : ∀ p c y d, x (p.setSeen l c y) d = x p d) (cs : List Channel) (p : Part) :
    p.forChannels cs (fun c q => q.setSeen l c (x q c)) =
      { p with faults := { p.faults with seen := p.faults.seen.set l (changedAt (p.faults.seen.get l) cs (fun c _ => x p c)) } } := by
  have folded : p.forChannels cs (fun c q => q.setSeen l c (x q c)) = { p with faults := { p.faults with
      seen := p.faults.seen.set l (cs.foldl (fun v c => v.set c (x p c)) (p.faults.seen.get l)) } } := by
    induction cs generalizing p with
    | nil => simp
    | cons c cs ih =>
      rw [Part.forChannels_cons, ih]
      simp only [steady]
      simp [Part.setSeen]
  rw [folded, foldl_set_idem (fun c _ => x p c) (fun _ _ => rfl)]

theorem Part.mem_reported (p : Part) (m : Motion) (c : Channel) : c ∈ p.reported m.link ↔ c ∈ p.mapChannels m := by
  simp only [Part.reported, Motion.link_motion, List.mem_filter, mem_channels, true_and, List.any_eq_true, Part.mapChannels,
    List.mem_flatMap]
  refine exists_congr fun o => and_congr_right fun _ => ?_
  cases o with
  | none => simp
  | some e => exact SlotEntry.names_iff

/-- The seen sets after a STATUS: the cause set of each channel reported. -/
theorem Part.recordSeen_eq (p : Part) (l : Link) :
    p.recordSeen l = { p with faults := { p.faults with
      seen := p.faults.seen.set l (changedAt (p.faults.seen.get l) (p.reported l) (fun c _ => p.causesOf c)) } } :=
  Part.forChannels_setSeen l Part.causesOf (fun _ _ _ _ => rfl) _ p

/-- Settles O40: the reply read off slot by slot and channel by channel, and the seen sets of the channels reported. -/
theorem statusReportsAndRecords : Obligations.StatusReportsAndRecords := by
  intro s l entry takes hentry
  obtain rfl : entry = s.part.statusEntry := by
    funext n c
    rw [hentry, ← CauseSet.code_eq, ← CauseSet.topCode_eq]
    rfl
  have judged : s.part.statusReq l [] = (s.part.recordSeen l).done l .status (s.part.statusBytes l) := rfl
  refine ⟨?_, ?_⟩
  · rintro m rfl
    refine does_of_eq takes (by simp) rfl rfl (judged.trans ?_)
    have slots : s.part.statusSlot = fun o => match o with
        | none => [0]
        | some e => BitVec.ofNat 8 e.members.length ::
            e.members.flatMap (fun x => s.part.statusEntry (x.ch.val + bit x.reversed * 128) x.ch) := by
      funext o
      cases o <;> rfl
    have seen : changedAt (s.part.faults.seen.get m.link) (s.part.reported m.link) (fun c _ => s.part.causesOf c) =
        .ofFn (fun c => if c ∈ s.part.mapChannels m then s.part.causesOf c else s.part.seenOf m.link c) := by
      refine Six.ext_get fun c => ?_
      simp only [changedAt_get, Six.get_ofFn, Part.mem_reported]
      rfl
    rw [Part.recordSeen_eq, seen]
    simp only [Part.statusBytes, Motion.link_motion, Part.statusMotion, slots, List.append_assoc]
    rfl
  · rintro rfl
    refine does_of_eq takes (by simp) rfl rfl (judged.trans ?_)
    have seen : changedAt (s.part.faults.seen.get .s) (s.part.reported .s) (fun c _ => s.part.causesOf c) = s.part.faults.causes :=
      Six.ext_get fun c => by
        rw [changedAt_get]
        exact if_pos (mem_channels c)
    rw [Part.recordSeen_eq, seen]
    simp only [Part.statusBytes, Link.motion_s, Part.statusSupervisor, List.append_assoc]
    rfl

/-! ### READ and EVENTS -/

theorem onlyChannel_ofNat (c : Channel) : onlyChannel [BitVec.ofNat 8 c.val] = some c := channelOf_ofNat c

theorem Part.mayRead_motion (p : Part) (m : Motion) (c : Channel) : p.mayRead m.link c = true ↔ p.binding.holders.get c = some m := by
  simp [Part.mayRead]

theorem QueueEntry.bytes_eq (e : QueueEntry) :
    e.bytes = [BitVec.ofNat 8 e.kind.code, BitVec.ofNat 8 (match e.channel with
        | some c => c.val
        | none => 0xFF),
      BitVec.ofNat 8 (match e.detail with
        | .cause x => x.priority
        | .entered st => st.code
        | .none => 0xFF),
      BitVec.ofNat 8 e.count, BitVec.ofNat 8 (e.stamp.toNat / 256), BitVec.ofNat 8 e.stamp.toNat] := by
  obtain ⟨kind, channel, detail, count, stamp⟩ := e
  cases channel <;> cases detail <;> rfl

/-- The link after an EVENTS: the attention line follows what is left of the queue. -/
theorem LinkIf.follow_fetched (i : LinkIf) :
    ({ i with queue := i.queue.drop 8, overrun := false } : LinkIf).follow =
      { i with queue := i.queue.drop 8, overrun := false, attention := decide (8 < i.queue.length) } := by
  have left : (!(i.queue.drop 8).isEmpty) = decide (8 < i.queue.length) := by
    rw [Bool.eq_iff_iff, decide_eq_true_eq, Bool.not_eq_true', ← Bool.not_eq_true, List.isEmpty_iff, List.drop_eq_nil_iff, not_le]
  simp [LinkIf.follow, left]

/-- Settles O41: the record in the order of its fields, and the queue's front taken. -/
theorem readAndEventsAnswer : Obligations.ReadAndEventsAnswer := by
  intro s l takes
  refine ⟨?_, ?_⟩
  · rintro c r rfl
    refine ⟨fun may => does_of_eq takes (by simp) rfl rfl ?_, ?_⟩
    · have may : s.part.mayRead l c = true := by
        rcases may with rfl | ⟨m, rfl, holds⟩
        · rfl
        · exact (s.part.mayRead_motion m c).mpr holds
      simp only [Part.readReq, onlyChannel_ofNat]
      exact (if_pos may).trans rfl
    · rintro m rfl other
      refine refuses_of_eq takes (by simp) rfl rfl ?_
      simp only [Part.readReq, onlyChannel_ofNat]
      exact if_neg fun may => other ((s.part.mayRead_motion m c).mp may)
  · rintro i rfl
    refine does_of_eq takes (by simp) rfl rfl ?_
    have fetched : s.part.eventsReq l [] = (s.part.modLink l (fun i => ({ i with queue := i.queue.drop 8, overrun := false } : LinkIf).follow)).done
        l .events (put8 ((s.part.links.get l).queue.take 8).length ++ put8 (bit (s.part.links.get l).overrun) ++
          ((s.part.links.get l).queue.take 8).flatMap QueueEntry.bytes) := rfl
    rw [fetched, List.length_take]
    simp only [LinkIf.follow_fetched, funext QueueEntry.bytes_eq]
    rfl

/-! ### ACK -/

/-- One channel of an ACK as the manual says it. -/
theorem Part.ackOne_eq (p : Part) (l : Link) (c : Channel) :
    p.ackOne l c =
      if p.stateOf c = .fault ∧ p.acked l c = .empty then
        ({ p with
            faults := ⟨p.faults.causes.set c (p.acked l c), p.faults.seen.set l ((p.faults.seen.get l).set c .empty)⟩
            ctx := p.ctx.set c { p.ctx.get c with state := .off } } : Part).sendChannel .stateEntered c (.entered .off)
      else
        { p with faults := ⟨p.faults.causes.set c (p.acked l c), p.faults.seen.set l ((p.faults.seen.get l).set c .empty)⟩ } := by
  simp only [Part.ackOne, Bool.and_eq_true, decide_eq_true_eq, CauseSet.isEmpty_iff]
  rfl

/-- Settles O42: the channels one after another, each left the causes that this link has not seen. -/
theorem ackClearsSeenCauses : Obligations.AckClearsSeenCauses := by
  refine ⟨fun s m k takes unbound => ?_, fun s l cs payload left q takes names hleft hq => ?_⟩
  · refine refuses_of_eq takes (by simp) rfl rfl ?_
    simp only [Part.ackReq, Motion.link_motion, onlySlot_ofNat, unbound]
  · obtain rfl : left = fun p c => p.acked l c :=
      funext₂ fun p c => CauseSet.ext_has fun x => (hleft p c x).trans (p.acked_has l c x).symm
    have acked : s.part.forChannels cs (fun c q => q.ackOne l c) = q := by
      rw [hq]
      simp only [← Part.ackOne_eq]
      rfl
    have judged : s.part.ackReq l payload = s.part.ackChannels l cs := by
      rcases names with ⟨m, k, e, rfl, rfl, bound, rfl⟩ | ⟨rfl, mask, small, rfl, rfl⟩
      · simp only [Part.ackReq, Motion.link_motion, onlySlot_ofNat, bound, SlotEntry.ascending_eq]
      · simp only [Part.ackReq, Link.motion_s, onlyMask_single small]
    have fits : payload.length ≤ 60 := by
      rcases names with ⟨m, k, e, -, rfl, -, -⟩ | ⟨-, mask, -, rfl, -⟩ <;> simp
    refine does_of_eq takes fits rfl rfl (judged.trans ?_)
    unfold Part.ackChannels
    simp only [acked, Part.ackBytes, CauseSet.code_eq]
    rfl

end Sys2Proof.Machine

/-! SUPPORT. The requests of the binding unit: CLAIM, RELEASE, MAP, UNMAP and REVOKE. -/

namespace Sys2Proof.Machine

/-- A request whose judgement ends in some reply. -/
theorem answers_of_eq {c : Instr} {s : State} {l : Link} {k : Kind} {q : Part} {r : Reply} {f : Part → Part}
    {payload : List Byte} (takes : s.takes l) (fits : payload.length ≤ 60) (request : requestOf c = some (l, k, payload))
    (e : exec c s = .next (s.run (fun p => p.request l payload f))) (judged : f s.part = q.setReply l r) :
    exec c s = .next { s with part := q.answered l (s.clockedOut l c) r } := by
  unfold State.clockedOut
  rw [clocked_request request, e, State.run_request takes payload f fits, judged, Part.endFrame_setReply]

/-! ### CLAIM and RELEASE -/

theorem Part.heldElsewhere_iff (p : Part) (m : Motion) (c : Channel) :
    p.heldElsewhere m c = true ↔ ∃ n, n ≠ m ∧ p.binding.holders.get c = some n := by
  unfold Part.heldElsewhere Part.heldBy
  cases p.binding.holders.get c <;> simp

theorem Part.forChannels_setHolder (h : Option Motion) (cs : List Channel) (p : Part) :
    p.forChannels cs (fun c q => q.setHolder c h) = p.withHolders (changedAt p.binding.holders cs (fun _ _ => h)) := by
  rw [← foldl_set_idem (fun _ _ => h) fun _ _ => rfl]
  induction cs generalizing p with
  | nil => rfl
  | cons c cs ih => rw [Part.forChannels_cons, ih]; rfl

theorem Part.forChannels_unhold (m : Motion) (cs : List Channel) (p : Part) :
    p.forChannels cs (fun c q => q.unhold m c) =
      ({ p with faults := { p.faults with
          seen := p.faults.seen.set m.link (changedAt (p.faults.seen.get m.link) cs (fun _ _ => .empty)) } } : Part).withHolders
        (changedAt p.binding.holders cs (fun _ _ => none)) := by
  rw [← foldl_set_idem (fun _ _ => none) fun _ _ => rfl, ← foldl_set_idem (fun _ _ => CauseSet.empty) fun _ _ => rfl]
  induction cs generalizing p with
  | nil => simp [Part.withHolders]
  | cons c cs ih =>
    rw [Part.forChannels_cons, ih]
    simp [Part.unhold, Part.setSeen, Part.setHolder, Part.withHolders]

theorem any_not_heldBy {p : Part} {m : Motion} {cs : List Channel} :
    cs.any (fun c => !p.heldBy m c) = true ↔ ∃ c ∈ cs, p.binding.holders.get c ≠ some m := by
  simp [Part.heldBy]

theorem any_mapped {p : Part} {cs : List Channel} :
    cs.any p.mapped = true ↔ ∃ c ∈ cs, c ∈ p.mapChannels .a ++ p.mapChannels .b := by
  simp only [List.any_eq_true, Part.mapped_iff]

/-- Settles O43: the holders of the named channels judged and then moved together. -/
theorem claimAndReleaseMoveHolders : Obligations.ClaimAndReleaseMoveHolders := by
  intro s m mask takes small
  have mask_eq : onlyMask [mask] = some (namedChannels mask) := onlyMask_single small
  refine ⟨?_, ?_⟩
  · rintro h rfl
    refine ⟨fun free => does_of_eq takes (by simp) rfl rfl ?_, fun held => ?_⟩
    · simp only [Part.claimReq, Part.onMotion_link, mask_eq]
      refine (if_neg ?_).trans (by rw [Part.forChannels_setHolder]; rfl)
      rw [List.any_eq_true]
      rintro ⟨c, mem, elsewhere⟩
      obtain ⟨n, other, holder⟩ := (s.part.heldElsewhere_iff m c).mp elsewhere
      rcases free c mem with none | mine
      · rw [none] at holder; cases holder
      · rw [mine] at holder; exact other (Option.some.inj holder).symm
    · refine answers_of_eq takes (by simp) rfl rfl ?_
      simp only [Part.claimReq, Part.onMotion_link, mask_eq]
      refine (if_pos ?_).trans rfl
      obtain ⟨c, mem, elsewhere⟩ := held
      exact List.any_eq_true.mpr ⟨c, mem, (s.part.heldElsewhere_iff m c).mpr elsewhere⟩
  · rintro h rfl
    refine ⟨fun other => refuses_of_eq takes (by simp) rfl rfl ?_, fun mine => ?_⟩
    · simp only [Part.releaseReq, Part.onMotion_link, mask_eq]
      exact if_pos (any_not_heldBy.mpr other)
    · have held : ¬(namedChannels mask).any (fun c => !s.part.heldBy m c) = true := by
        rw [any_not_heldBy]
        rintro ⟨c, mem, other⟩
        exact other (mine c mem)
      refine ⟨fun mapped => refuses_of_eq takes (by simp) rfl rfl ?_, fun free => does_of_eq takes (by simp) rfl rfl ?_⟩
      · simp only [Part.releaseReq, Part.onMotion_link, mask_eq]
        exact (if_neg held).trans (if_pos (any_mapped.mpr mapped))
      · have unmapped : ¬(namedChannels mask).any s.part.mapped = true := by
          rw [any_mapped]
          rintro ⟨c, mem, mapped⟩
          exact free c mem mapped
        simp only [Part.releaseReq, Part.onMotion_link, mask_eq]
        exact (if_neg held).trans ((if_neg unmapped).trans (by rw [Part.forChannels_unhold]; rfl))

/-! ### MAP and UNMAP -/

theorem memberOf_ofNat (c : Channel) (r : Byte) : memberOf (BitVec.ofNat 8 c.val) r = some ⟨c, decide (r ≠ 0)⟩ := by
  rw [memberOf, channelOf_ofNat]
  rfl

theorem mapFields_single (k : LinkSlot) (c : Channel) (r : Byte) :
    mapFields [BitVec.ofNat 8 k.val, BitVec.ofNat 8 c.val, r] = some (k, ⟨⟨c, decide (r ≠ 0)⟩, none⟩) := by
  simp only [mapFields, linkSlotOf_ofNat, memberOf_ofNat]

theorem mapFields_pair (k : LinkSlot) (c d : Channel) (r t : Byte) :
    mapFields [BitVec.ofNat 8 k.val, BitVec.ofNat 8 c.val, r, BitVec.ofNat 8 d.val, t] =
      some (k, ⟨⟨c, decide (r ≠ 0)⟩, some ⟨d, decide (t ≠ 0)⟩⟩) := by
  simp only [mapFields, linkSlotOf_ofNat, memberOf_ofNat]

/-- Settles O44: the checks of MAP in their order on the entry that the payload spells, and the slot of UNMAP. -/
theorem mapAndUnmapBindSlots : Obligations.MapAndUnmapBindSlots := by
  refine ⟨fun s m k e payload takes spelled => ?_, ?_⟩
  · have fields : mapFields payload = some (k, e) := by
      rcases spelled with ⟨r, entry, rfl⟩ | ⟨x, y, r, t, rfl, rfl⟩
      · exact (mapFields_single k e.first.ch r).trans (congrArg (fun e => some (k, e)) entry.symm)
      · exact mapFields_pair k x y r t
    have fits : payload.length ≤ 60 := by
      rcases spelled with ⟨r, -, rfl⟩ | ⟨x, y, r, t, -, rfl⟩ <;> simp
    have judged : s.part.mapReq m.link payload =
        if ((s.part.binding.maps.get m).get k).isSome then s.part.refuse m.link .map .slotBound
        else if !e.chans.Nodup then s.part.refuse m.link .map .badValue
        else if e.chans.any (fun c => !s.part.heldBy m c) then s.part.refuse m.link .map .notHeld
        else if e.chans.any s.part.mapped then s.part.refuse m.link .map .slotBound
        else (s.part.setSlot m k (some e)).done m.link .map (put8 k.val ++ e.memberBytes) := by
      simp only [Part.mapReq, Part.onMotion_link, fields]
    refine ⟨fun bound => refuses_of_eq takes fits rfl rfl (judged.trans (if_pos (Option.isSome_iff_ne_none.mpr bound))),
      fun unbound => ?_⟩
    rw [unbound] at judged
    have judged := judged.trans (if_neg Bool.false_ne_true)
    refine ⟨fun twice => refuses_of_eq takes fits rfl rfl (judged.trans (if_pos (by simpa using twice))), fun once => ?_⟩
    have judged := judged.trans (if_neg (by simpa using once))
    refine ⟨fun other => refuses_of_eq takes fits rfl rfl (judged.trans (if_pos (any_not_heldBy.mpr other))), fun mine => ?_⟩
    have judged := judged.trans (if_neg (by rw [any_not_heldBy]; rintro ⟨c, mem, other⟩; exact other (mine c mem)))
    refine ⟨fun mapped => refuses_of_eq takes fits rfl rfl (judged.trans (if_pos (any_mapped.mpr mapped))), fun free => ?_⟩
    exact does_of_eq takes fits rfl rfl
      (judged.trans (if_neg (by rw [any_mapped]; rintro ⟨c, mem, mapped⟩; exact free c mem mapped)))
  · rintro s m k payload takes rfl
    refine ⟨fun unbound => refuses_of_eq takes (by simp) rfl rfl ?_, fun e bound => ⟨fun active => ?_, fun quiet => ?_⟩⟩
    · simp only [Part.unmapReq, Part.onMotion_link, onlySlot_ofNat, unbound]
    · refine refuses_of_eq takes (by simp) rfl rfl ?_
      simp only [Part.unmapReq, Part.onMotion_link, onlySlot_ofNat, bound]
      exact if_pos (List.any_eq_true.mpr active)
    · refine does_of_eq takes (by simp) rfl rfl ?_
      simp only [Part.unmapReq, Part.onMotion_link, onlySlot_ofNat, bound, Part.dropSetpoints_eq]
      refine (if_neg ?_).trans rfl
      rw [List.any_eq_true]
      rintro ⟨c, mem, active⟩
      rw [quiet c mem] at active
      cases active

/-! ### REVOKE -/

theorem changedAt_congr {α : Type} (v : Six α) {cs ds : List Channel} (f : Channel → α → α) (same : ∀ c, c ∈ cs ↔ c ∈ ds) :
    changedAt v cs f = changedAt v ds f := by
  refine Six.ext_get fun c => ?_
  rw [changedAt_get, changedAt_get]
  exact if_congr (same c) rfl rfl

theorem Part.removeEntry_holders (p : Part) (c : Channel) : (p.removeEntry c).binding.holders = p.binding.holders := by
  rw [Part.removeEntry_binding]
  cases p.entryOf c <;> rfl

theorem Part.revokeOne_of_unheld {p : Part} {c : Channel} (unheld : p.binding.holders.get c = none) : p.revokeOne c = p := by
  unfold Part.revokeOne
  rw [unheld]

theorem Part.revokeOne_of_held {p : Part} {c : Channel} {m : Motion} (held : p.binding.holders.get c = some m) :
    p.revokeOne c = ((((p.stop c).removeEntry c).unhold m c).send m.link .claimRevoked (some c) .none).send .s .claimRevoked
      (some c) .none := by
  unfold Part.revokeOne
  rw [held]

theorem Part.revokeOne_holders (p : Part) (c : Channel) : (p.revokeOne c).binding.holders = p.binding.holders.set c none := by
  cases held : p.binding.holders.get c with
  | none => rw [Part.revokeOne_of_unheld held, ← held, Six.set_get]
  | some m =>
    rw [Part.revokeOne_of_held held, Part.send_binding, Part.send_binding]
    change ((p.stop c).removeEntry c).binding.holders.set c none = _
    rw [Part.removeEntry_holders, Part.stop_binding]

theorem Part.forChannels_revokeOne_holders (cs : List Channel) (p : Part) :
    (p.forChannels cs (fun c q => q.revokeOne c)).binding.holders = changedAt p.binding.holders cs (fun _ _ => none) := by
  rw [← foldl_set_idem (fun _ _ => none) fun _ _ => rfl]
  induction cs generalizing p with
  | nil => rfl
  | cons c cs ih => rw [Part.forChannels_cons, ih, Part.revokeOne_holders]; rfl

/-- With a sound binding a channel that no link holds stands in no map and is not active. -/
theorem Part.bindingSound.of_unheld {p : Part} (sound : p.bindingSound) {c : Channel} (unheld : p.binding.holders.get c = none) :
    c ∉ p.mapChannels .a ++ p.mapChannels .b ∧ (p.stateOf c).active = false := by
  have sound := p.bindingSound_iff.mp sound
  have unbound (m : Motion) (k : LinkSlot) (e : SlotEntry) : ¬p.boundAt m k e c := by
    intro bound
    have held := sound.holder bound
    rw [unheld] at held
    cases held
  refine ⟨fun mapped => ?_, ?_⟩
  · obtain ⟨m, k, e, bound⟩ := Part.mem_mapChannels_both.mp mapped
    exact unbound m k e bound
  · rw [← Bool.not_eq_true]
    intro active
    obtain ⟨m, k, e, bound⟩ := sound.mapped c active
    exact unbound m k e bound

theorem Part.removeEntry_of_unmapped {p : Part} {c : Channel} (unmapped : p.entryOf c = none) : p.removeEntry c = p := by
  unfold Part.removeEntry
  rw [unmapped]

theorem Part.removeEntry_of_alone {p : Part} {c : Channel} {m : Motion} {k : LinkSlot} {e : SlotEntry}
    (entry : p.entryOf c = some (m, k, e)) (alone : p.partnerOf c = none) :
    p.removeEntry c = (p.setSlot m k none).dropSetpoints e.chans := by
  unfold Part.removeEntry
  rw [entry, alone]

theorem Part.removeEntry_of_partner {p : Part} {c d : Channel} {m : Motion} {k : LinkSlot} {e : SlotEntry}
    (entry : p.entryOf c = some (m, k, e)) (partner : p.partnerOf c = some d) :
    p.removeEntry c = ((p.setSlot m k none).stop d).dropSetpoints e.chans := by
  unfold Part.removeEntry
  rw [entry, partner]

/-- Settles O45: one revocation by the entry of its channel; the fold over the mask leaves the named channels unheld, which a sound
binding does not let stand in a map. -/
theorem revokeTakesChannelsAway : Obligations.RevokeTakesChannelsAway := by
  refine ⟨fun s mask q takes small hq => ?_, fun p c => Part.revokeOne_of_unheld, fun p c m q r sound held hq hr => ?_⟩
  · have revoked : s.part.forChannels (namedChannels mask) (fun c q => q.revokeOne c) = q := hq.symm
    refine ⟨does_of_eq takes (by simp) rfl rfl ?_, fun sound c isNamed => ?_⟩
    · simp only [Part.revokeReq, Part.onSupervisor_s, onlyMask_single small, revoked]
      rfl
    · have holders := Part.forChannels_revokeOne_holders (namedChannels mask) s.part
      rw [revoked] at holders
      have unheld : q.binding.holders.get c = none := by
        rw [holders, changedAt_get, if_pos (mem_namedChannels.mpr isNamed)]
      have steady : Steady s.part q :=
        revoked ▸ Steady.forChannels (fun c q => q.revokeOne c) (fun c p => steady_revokeOne p c) (namedChannels mask) s.part
      exact ⟨unheld, (steady.binding sound).of_unheld unheld⟩
  · obtain rfl : q = p.stop c := hq
    have soundStop := (p.stop c).bindingSound_iff.mp ((steady_stop p c).binding sound)
    have sound := p.bindingSound_iff.mp sound
    have same (m : Motion) (k : LinkSlot) : (p.stop c).entryAt m k = p.entryAt m k := by
      unfold Part.entryAt
      rw [Part.stop_binding]
    have removed : (p.stop c).removeEntry c = r := by
      rcases hr with ⟨unmapped, rfl⟩ | ⟨k, x, bound, rfl, rfl⟩ | ⟨k, x, y, d, u, bound, mates, rfl, hv⟩
      · refine Part.removeEntry_of_unmapped (Part.entryOf_eq_none_iff.mpr fun m' k e there => unmapped ?_)
        have held' := soundStop.holder there
        rw [Part.stop_binding, held] at held'
        cases held'
        obtain ⟨bound, named⟩ := there
        exact Part.mem_mapChannels.mpr ⟨k, e, (same m k).symm.trans bound, named⟩
      · have bound : (p.stop x.ch).entryAt m k = some ⟨x, none⟩ := (same m k).trans bound
        rw [Part.removeEntry_of_alone (Part.entryOf_of_boundAt soundStop ⟨bound, by simp⟩) (Part.partnerOf_of_single soundStop bound),
          Part.dropSetpoints_eq]
        rfl
      · rw [hv _ rfl]
        have bound : (p.stop c).entryAt m k = some ⟨x, some y⟩ := (same m k).trans bound
        have drop (v : Part) (chans : ∀ e, e ∈ [x.ch, y.ch] ↔ e ∈ [c, d]) : v.dropSetpoints [x.ch, y.ch] =
            { v with ctx := changedAt v.ctx [c, d] (fun _ x => { x with setpoint := none }) } := by
          rw [Part.dropSetpoints_eq, changedAt_congr v.ctx _ chans]
        rcases mates with ⟨rfl, rfl⟩ | ⟨rfl, rfl⟩
        · rw [Part.removeEntry_of_partner (Part.entryOf_of_boundAt soundStop ⟨bound, by simp⟩) (Part.partnerOf_first soundStop bound)]
          exact drop _ fun _ => Iff.rfl
        · rw [Part.removeEntry_of_partner (Part.entryOf_of_boundAt soundStop ⟨bound, by simp⟩) (Part.partnerOf_second soundStop bound)]
          exact drop _ fun _ => by simp [or_comm]
    rw [Part.revokeOne_of_held held, removed]
    rfl

end Sys2Proof.Machine

/-! SUPPORT. Channel parameters: the groups of PARAM, and CEILING. -/

namespace Sys2Proof.Machine

/-! ### The loaded marks -/

theorem Marks.code_eq (mk : Marks) :
    mk.code < 2 ^ 6 ∧ (List.range 6).map mk.code.testBit = [mk.sense, mk.track, mk.loop, mk.limits, mk.protect, mk.hold] := by
  have all : ∀ a b c d e f : Bool, Marks.code ⟨a, b, c, d, e, f⟩ < 2 ^ 6 ∧
      (List.range 6).map (Marks.code ⟨a, b, c, d, e, f⟩).testBit = [a, b, c, d, e, f] := by decide
  obtain ⟨a, b, c, d, e, f⟩ := mk
  exact all a b c d e f

/-! ### The groups as their bytes carry them -/

theorem clampN_byte_pos {n : ℕ} (h : n < 256) : clampN 1 255 n = max 1 n := by unfold clampN; omega

theorem clampN_word_pos {n : ℕ} (h : n < 65536) : clampN 1 65535 n = max 1 n := by unfold clampN; omega

theorem senseFields_put {ga gb ro : ℕ} (ha : ga < 65536) (hb : gb < 65536) (hr : ro < 65536) :
    senseFields (put16 ga ++ put16 gb ++ put16 ro) = some { gA := max 1 ga, gB := max 1 gb, ro := max 16 (min 512 ro) } := by
  simp only [put16, List.cons_append, List.nil_append, senseFields, u16_put16 ha, u16_put16 hb, u16_put16 hr,
    clampN_word_pos ha, clampN_word_pos hb]
  rfl

theorem trackFields_put {wt bt nx q : ℕ} (hw : wt < 256) (hb : bt < 65536) (hn : nx < 256) (hq : q < 256) :
    trackFields (put8 wt ++ put16 bt ++ put8 nx ++ put8 q) =
      some { wt := min 63 wt, bt := max 1 (min 4095 bt), nx := max 1 nx, q := q } := by
  simp only [put16, put8, List.cons_append, List.nil_append, trackFields, u16_put16 hb, byte_toNat hw, byte_toNat hn, byte_toNat hq,
    clampN_byte_pos hn, clampN_zero]
  rfl

theorem loopFields_put {a b c d : ℕ} (ha : a < 65536) (hb : b < 65536) (hc : c < 65536) (hd : d < 65536) :
    loopFields (put16 a ++ put16 b ++ put16 c ++ put16 d) = some { kpD := a, kiD := b, kpQ := c, kiQ := d } := by
  simp only [put16, List.cons_append, List.nil_append, loopFields, u16_put16 ha, u16_put16 hb, u16_put16 hc, u16_put16 hd]

theorem limitsFields_put {a b d e f : ℕ} (ha : a < 65536) (hb : b < 65536) (hd : d < 65536) (he : e < 65536) (hf : f < 65536) :
    limitsFields (put16 a ++ put16 b ++ put16 d ++ put16 e ++ put16 f) =
      some { icont := min 32767 a, ipk := min 32767 b, idMax := min 32767 d, mlim := max 16384 (min 32767 e), amax := f } := by
  simp only [put16, List.cons_append, List.nil_append, limitsFields, u16_put16 ha, u16_put16 hb, u16_put16 hd, u16_put16 he,
    u16_put16 hf, clampN_zero]
  rfl

theorem protectFields_put {itrip ih dt dl : ℕ} (hi : itrip < 65536) (hh : ih < 65536) (ht : dt < 256) (hl : dl < 256) :
    protectFields (put16 itrip ++ put16 ih ++ put8 dt ++ put8 dl) =
      some { itrip := min 32767 itrip, ih := min (min 32767 itrip) ih, dt := max 1 (min 15 dt), dl := max 1 (min 15 dl) } := by
  simp only [put16, put8, List.cons_append, List.nil_append, protectFields, u16_put16 hi, u16_put16 hh, byte_toNat ht, byte_toNat hl,
    clampN_zero]
  rfl

theorem holdFields_put {ts rs th : ℕ} (ht : ts < 256) (hr : rs < 65536) (hh : th < 65536) :
    holdFields (put8 ts ++ put16 rs ++ put16 th) = some { ts := max 1 ts, rs := max 1 (min 32767 rs), th := max 1 th } := by
  simp only [put16, put8, List.cons_append, List.nil_append, holdFields, u16_put16 hr, u16_put16 hh, byte_toNat ht,
    clampN_byte_pos ht, clampN_word_pos hh]
  rfl

theorem ceilingFields_put (c : Channel) {a b : ℕ} (ha : a < 65536) (hb : b < 65536) :
    ceilingFields (BitVec.ofNat 8 c.val :: put16 a ++ put16 b) = some (c, min (min 32767 b) (min 32767 a), min 32767 b) := by
  simp only [put16, List.cons_append, List.nil_append, ceilingFields, u16_put16 ha, u16_put16 hb, channelOf_ofNat,
    Option.map_some, clampN_zero]

/-! ### The checks that every PARAM shares -/

theorem Part.paramReq_of_held {α : Type} {p : Part} {m : Motion} {c : Channel} {fields : Option α} {g : α}
    (read : fields = some g) (store : Channel → α → Part → Part) (held : p.binding.holders.get c = some m) :
    p.paramReq m.link (BitVec.ofNat 8 c.val) fields store = store c g p := by
  simp only [Part.paramReq, Part.onMotion_link, channelOf_ofNat, read]
  exact if_pos held

theorem Part.paramReq_of_other {α : Type} {p : Part} {m : Motion} {c : Channel} {fields : Option α} (read : fields.isSome = true)
    (store : Channel → α → Part → Part) (other : p.binding.holders.get c ≠ some m) :
    p.paramReq m.link (BitVec.ofNat 8 c.val) fields store = p.refuse m.link .param .notHeld := by
  obtain ⟨g, read⟩ := Option.isSome_iff_exists.mp read
  simp only [Part.paramReq, Part.onMotion_link, channelOf_ofNat, read]
  exact if_neg other

/-- The fields of the six groups can be read from as many bytes as they have. -/
theorem paramFields_isSome (f : List Byte) :
    (f.length = 6 → (senseFields f).isSome = true ∧ (protectFields f).isSome = true) ∧
    (f.length = 5 → (trackFields f).isSome = true ∧ (holdFields f).isSome = true) ∧
    (f.length = 8 → (loopFields f).isSome = true) ∧ (f.length = 10 → (limitsFields f).isSome = true) := by
  refine ⟨fun h => ?_, fun h => ?_, fun h => ?_, fun h => ?_⟩
  · match f, h with
    | [a, b, c, d, e, g], _ => exact ⟨rfl, rfl⟩
  · match f, h with
    | [a, b, c, d, e], _ => exact ⟨rfl, rfl⟩
  · match f, h with
    | [a, b, c, d, e, g, i, j], _ => rfl
  · match f, h with
    | [a, b, c, d, e, g, i, j, k, l], _ => rfl

/-- The commands of PARAM carry one of the six group codes. -/
theorem group_of_request {i : Instr} {l : Link} {ch : Byte} {payload : List Byte}
    (request : requestOf i = some (l, .param, ch :: payload)) :
    ∃ g f, payload = g :: f ∧ (g = 1 ∨ g = 2 ∨ g = 3 ∨ g = 4 ∨ g = 5 ∨ g = 6) := by
  cases i with
  | paramSense => cases request; exact ⟨1, _, rfl, by simp⟩
  | paramTrack => cases request; exact ⟨2, _, rfl, by simp⟩
  | paramLoop => cases request; exact ⟨3, _, rfl, by simp⟩
  | paramLimits => cases request; exact ⟨4, _, rfl, by simp⟩
  | paramProtect => cases request; exact ⟨5, _, rfl, by simp⟩
  | paramHold => cases request; exact ⟨6, _, rfl, by simp⟩
  | _ => cases request

/-- A PARAM of a group of the right length for a channel that the link does not hold. -/
theorem Part.judgeKind_param_of_other {p : Part} {m : Motion} {c : Channel} {g : Byte} {f : List Byte}
    (group : g = 1 ∨ g = 2 ∨ g = 3 ∨ g = 4 ∨ g = 5 ∨ g = 6)
    (length : Kind.param.fitsLength (BitVec.ofNat 8 c.val :: g :: f) = true) (other : p.binding.holders.get c ≠ some m) :
    p.judgeKind m.link .param (BitVec.ofNat 8 c.val :: g :: f) = p.refuse m.link .param .notHeld := by
  have length : f.length = _ := of_decide_eq_true length
  obtain ⟨six, five, eight, ten⟩ := paramFields_isSome f
  rcases group with rfl | rfl | rfl | rfl | rfl | rfl
  · exact Part.paramReq_of_other (six length).1 _ other
  · exact Part.paramReq_of_other (five length).1 _ other
  · exact Part.paramReq_of_other (eight length) _ other
  · exact Part.paramReq_of_other (ten length) _ other
  · exact Part.paramReq_of_other (six length).2 _ other
  · exact Part.paramReq_of_other (five length).2 _ other

theorem param_length_le {payload : List Byte} (length : Kind.param.fitsLength payload = true) : payload.length ≤ 60 := by
  match payload with
  | [] | [_] => cases length
  | c :: g :: f =>
    have length : f.length = _ := of_decide_eq_true length
    simp only [List.length_cons]
    split_ifs at length <;> omega

/-! ### A group stored -/

/-- The reply to a PARAM after the context of its channel has changed. -/
theorem Part.paramReplied_modCtx (p : Part) (l : Link) (c : Channel) (f : Context → Context) (group : ℕ) (fields more : List Byte) :
    (p.modCtx c f).paramReplied l c group fields more =
      (p.modCtx c f).done l .param (put8 c.val ++ put8 group ++ fields ++ put8 (f (p.ctx.get c)).marks.code ++ more) := by
  rw [Part.paramReplied, Part.modCtx_ctx, Six.get_set_same]

/-- Settles O46: each group read from its bytes, then stored in the context of its channel. -/
theorem paramStoresClampedGroups : Obligations.ParamStoresClampedGroups := by
  refine ⟨Marks.code_eq, fun s m c i payload takes other request length => ?_, ?_⟩
  · obtain ⟨g, f, rfl, group⟩ := group_of_request request
    exact refuses_of_judge (Or.inl request) (param_length_le length) takes (Part.judgeKind_param_of_other group length other)
  · rintro s m c ch x u takes held rfl rfl rfl
    refine ⟨?_, ?_, ?_, ?_, ?_⟩
    · rintro ga gb ro g mk ha hb hr rfl rfl
      have read := senseFields_put ha hb hr
      refine ⟨fun active => refuses_of_eq takes (by simp) rfl rfl ?_, fun quiet => does_of_eq takes (by simp) rfl rfl ?_⟩
      · exact (Part.paramReq_of_held read _ held).trans (if_pos active)
      · refine (Part.paramReq_of_held read _ held).trans ((if_neg (by rw [Part.stateOf, quiet]; decide)).trans ?_)
        dsimp only
        rw [Part.paramReplied_modCtx]
        simp only [Sense.narrow_eq]
        rfl
    · rintro wt bt nx q g mk hw hb hn hq rfl rfl
      refine does_of_eq takes (by simp) rfl rfl ?_
      exact (Part.paramReq_of_held (trackFields_put hw hb hn hq) _ held).trans (Part.paramReplied_modCtx ..)
    · rintro kpd kid kpq kiq g mk h1 h2 h3 h4 rfl rfl
      refine does_of_eq takes (by simp) rfl rfl ?_
      exact (Part.paramReq_of_held (loopFields_put h1 h2 h3 h4) _ held).trans (Part.paramReplied_modCtx ..)
    · rintro itrip ih dt dl g mk hi hh ht hl rfl rfl
      refine does_of_eq takes (by simp) rfl rfl ?_
      exact (Part.paramReq_of_held (protectFields_put hi hh ht hl) _ held).trans (Part.paramReplied_modCtx ..)
    · rintro ts rs th g mk ht hr hh rfl rfl
      refine does_of_eq takes (by simp) rfl rfl ?_
      exact (Part.paramReq_of_held (holdFields_put ht hr hh) _ held).trans (Part.paramReplied_modCtx ..)

/-! ### LIMITS and CEILING -/

/-- LIMITS stored, with the context as the clamp order leaves it. -/
theorem Part.storeLimits_eq (p : Part) (l : Link) (c : Channel) (g : LimitsGroup) :
    Part.storeLimits l c g p =
      (p.modCtx c (fun x => { x.reclamp g with marks := { x.marks with limits := true } })).done l .param
        (put8 c.val ++ put8 4 ++ ((p.ctx.get c).reclamp g).limitsG.bytes ++
          put8 { (p.ctx.get c).marks with limits := true : Marks }.code ++
          (put16 ((p.ctx.get c).reclamp g).allowance ++ put16 (p.ctx.get c).icontCeil ++ put16 (p.ctx.get c).ipkCeil)) := by
  unfold Part.storeLimits
  dsimp only
  rw [Part.paramReplied_modCtx, Part.modCtx_ctx, Six.get_set_same]
  rfl

theorem Part.ceilingReq_of_fields {p : Part} {payload : List Byte} {c : Channel} {ic pc : ℕ}
    (fields : ceilingFields payload = some (c, ic, pc)) {y : Context}
    (hy : y = ({ p.ctx.get c with icontCeil := ic, ipkCeil := pc } : Context).reclamp (p.ctx.get c).limitsG) :
    p.ceilingReq .s payload = ({ p with ctx := p.ctx.set c y } : Part).done .s .ceiling
      (put8 c.val ++ put16 ic ++ put16 pc ++ y.limitsG.bytes ++ put16 y.allowance) := by
  subst hy
  simp only [Part.ceilingReq, Part.onSupervisor_s, fields, Part.modCtx_ctx, Six.get_set_same]
  rfl

/-- Settles O47: the clamp order of the model is the one stated, at a LIMITS and at a CEILING. -/
theorem limitsAndCeilingsAreTied : Obligations.LimitsAndCeilingsAreTied := by
  rintro s c ch x rfl rfl tied htied
  obtain rfl : tied = limitsClampOrder := by
    funext ic pc g
    exact (htied ic pc g).trans rfl
  refine ⟨?_, ?_⟩
  · rintro m a b d e f g mk takes held ha hb hd he hf rfl rfl
    refine does_of_eq takes (by simp) rfl rfl ?_
    exact (Part.paramReq_of_held (limitsFields_put ha hb hd he hf) _ held).trans (Part.storeLimits_eq ..)
  · rintro a b ic pc g takes ha hb rfl rfl rfl
    refine does_of_eq takes (by simp) rfl rfl ?_
    exact (Part.ceilingReq_of_fields (ceilingFields_put c ha hb) rfl).trans rfl

end Sys2Proof.Machine

/-! SUPPORT. Setpoint batches: the records that the bytes of a SET spell, and SET with END clear. -/

namespace Sys2Proof.Machine

/-! ### Fields of two bytes, read and formed -/

theorem put8_toNat (b : Byte) : put8 b.toNat = [b] := by rw [put8, BitVec.ofNat_toNat, BitVec.setWidth_eq]

theorem u16_lt (hi lo : Byte) : u16 hi lo < 65536 := by
  have := hi.isLt
  have := lo.isLt
  unfold u16
  omega

theorem put16_u16 (hi lo : Byte) : put16 (u16 hi lo) = [hi, lo] := by
  have high := hi.isLt
  have low := lo.isLt
  unfold put16 u16
  congr 1
  · apply BitVec.eq_of_toNat_eq
    rw [BitVec.toNat_ofNat]
    omega
  · congr 1
    apply BitVec.eq_of_toNat_eq
    rw [BitVec.toNat_ofNat]
    omega

theorem word_u16 (hi lo : Byte) : put16 (BitVec.ofNat 16 (u16 hi lo)).toNat = [hi, lo] := by
  rw [BitVec.toNat_ofNat, Nat.mod_eq_of_lt (u16_lt hi lo), put16_u16]

theorem putS16_s16 (hi lo : Byte) : putS16 (s16 hi lo) = [hi, lo] := by
  rw [putS16, s16, BitVec.ofInt_toInt, word_u16]

theorem s16_range (hi lo : Byte) : -32768 ≤ s16 hi lo ∧ s16 hi lo ≤ 32767 := by
  have low := BitVec.le_toInt (BitVec.ofNat 16 (u16 hi lo))
  have high := BitVec.toInt_lt (x := BitVec.ofNat 16 (u16 hi lo))
  unfold s16
  omega

theorem word_put16 (x : Word16) : BitVec.ofNat 16 (u16 (BitVec.ofNat 8 (x.toNat / 256)) (BitVec.ofNat 8 x.toNat)) = x := by
  rw [u16_put16 x.isLt, BitVec.ofNat_toNat, BitVec.setWidth_eq]

theorem clampCurrent_of_le {x : ℤ} (h : x ≤ 32767) : clampCurrent x = max (-32767) x := by
  unfold clampCurrent clampI Config.currentMax
  rw [min_eq_right h]

/-! ### Records and their bytes -/

theorem wire_peak : Record.peak.wire = [0x20] := rfl

theorem recordsOf_peak (rest : List Byte) : recordsOf (0x20 :: rest) = (recordsOf rest).map (fun rs => .peak :: rs) := by
  rw [recordsOf.eq_def]
  rfl

theorem recordsOf_single {kb i1 i0 q1 q0 t1 t0 d1 d0 : Byte} {rest : List Byte} {k : LinkSlot} {rs : List Record}
    (slot : linkSlotOf kb = some k) (read : recordsOf rest = some rs) :
    recordsOf (0x11 :: kb :: i1 :: i0 :: q1 :: q0 :: t1 :: t0 :: d1 :: d0 :: rest) =
      some (.set k (clampCurrent (s16 i1 i0)) (clampCurrent (s16 q1 q0)) [⟨BitVec.ofNat 16 (u16 t1 t0), s16 d1 d0⟩] :: rs) := by
  rw [recordsOf.eq_def]
  simp [slot, read]

theorem recordsOf_double {kb i1 i0 q1 q0 t1 t0 d1 d0 v1 v0 e1 e0 : Byte} {rest : List Byte} {k : LinkSlot} {rs : List Record}
    (slot : linkSlotOf kb = some k) (read : recordsOf rest = some rs) :
    recordsOf (0x12 :: kb :: i1 :: i0 :: q1 :: q0 :: t1 :: t0 :: d1 :: d0 :: v1 :: v0 :: e1 :: e0 :: rest) =
      some (.set k (clampCurrent (s16 i1 i0)) (clampCurrent (s16 q1 q0))
        [⟨BitVec.ofNat 16 (u16 t1 t0), s16 d1 d0⟩, ⟨BitVec.ofNat 16 (u16 v1 v0), s16 e1 e0⟩] :: rs) := by
  rw [recordsOf.eq_def]
  simp [slot, read]

/-- The bytes of the records of a SET are read as the records with their references clamped. -/
theorem recordsOf_wire (rs : List Record) (fits : ∀ r ∈ rs, r.fits) : recordsOf (rs.flatMap Record.wire) = some (rs.map Record.stored) := by
  induction rs with
  | nil => rw [List.flatMap_nil, recordsOf.eq_def]; rfl
  | cons r rs ih =>
    obtain ⟨fit, rest⟩ := List.forall_mem_cons.mp fits
    have ih := ih rest
    rw [List.flatMap_cons]
    cases r with
    | peak =>
      rw [wire_peak, List.singleton_append, recordsOf_peak, ih]
      rfl
    | set k i q blocks =>
      obtain ⟨count, ⟨iLow, iHigh⟩, ⟨qLow, qHigh⟩, steps⟩ := fit
      rcases count with one | two
      · obtain ⟨b, rfl⟩ := List.length_eq_one_iff.mp one
        obtain ⟨bLow, bHigh⟩ := steps b (by simp)
        have bytes : (Record.set k i q [b]).wire = 0x11 :: put8 k.val ++ putS16 i ++ putS16 q ++ put16 b.theta.toNat ++ putS16 b.dTheta :=
          rfl
        simp only [bytes, put8, putS16, put16, List.cons_append, List.nil_append]
        rw [recordsOf_single (linkSlotOf_ofNat k) ih]
        simp only [s16_putS16 iLow iHigh, s16_putS16 qLow qHigh, s16_putS16 bLow bHigh, word_put16,
          clampCurrent_of_le iHigh, clampCurrent_of_le qHigh]
        rfl
      · obtain ⟨b, d, rfl⟩ := List.length_eq_two.mp two
        obtain ⟨bLow, bHigh⟩ := steps b (by simp)
        obtain ⟨dLow, dHigh⟩ := steps d (by simp)
        have bytes : (Record.set k i q [b, d]).wire = 0x12 :: put8 k.val ++ putS16 i ++ putS16 q ++ put16 b.theta.toNat ++
            putS16 b.dTheta ++ put16 d.theta.toNat ++ putS16 d.dTheta := rfl
        simp only [bytes, put8, putS16, put16, List.cons_append, List.nil_append]
        rw [recordsOf_double (linkSlotOf_ofNat k) ih]
        simp only [s16_putS16 iLow iHigh, s16_putS16 qLow qHigh, s16_putS16 bLow bHigh,
          s16_putS16 dLow dHigh, word_put16, clampCurrent_of_le iHigh, clampCurrent_of_le qHigh]
        rfl

/-- The bytes are those of whole records that their layouts can carry. -/
def spellsRecords (bytes : List Byte) : Prop := ∃ rs : List Record, (∀ r ∈ rs, r.fits) ∧ bytes = rs.flatMap Record.wire

theorem spellsRecords_cons {r : Record} {bytes : List Byte} (fit : r.fits) (rest : spellsRecords bytes) :
    spellsRecords (r.wire ++ bytes) := by
  obtain ⟨rs, fits, rfl⟩ := rest
  exact ⟨r :: rs, List.forall_mem_cons.mpr ⟨fit, fits⟩, rfl⟩

theorem linkSlot_of_byte {b : Byte} {k : LinkSlot} (h : linkSlotOf b = some k) : put8 k.val = [b] := by
  unfold linkSlotOf at h
  split at h
  · cases h
    exact put8_toNat b
  · cases h

/-- The bytes of a SET record of one angle block. -/
theorem wire_single {kb i1 i0 q1 q0 t1 t0 d1 d0 : Byte} {k : LinkSlot} (slot : linkSlotOf kb = some k) :
    (Record.set k (s16 i1 i0) (s16 q1 q0) [⟨BitVec.ofNat 16 (u16 t1 t0), s16 d1 d0⟩]).wire =
      [0x11, kb, i1, i0, q1, q0, t1, t0, d1, d0] := by
  simp only [Record.wire, linkSlot_of_byte slot, putS16_s16, List.flatMap_cons, List.flatMap_nil, word_u16]
  rfl

/-- The bytes of a SET record of two angle blocks. -/
theorem wire_double {kb i1 i0 q1 q0 t1 t0 d1 d0 v1 v0 e1 e0 : Byte} {k : LinkSlot} (slot : linkSlotOf kb = some k) :
    (Record.set k (s16 i1 i0) (s16 q1 q0)
      [⟨BitVec.ofNat 16 (u16 t1 t0), s16 d1 d0⟩, ⟨BitVec.ofNat 16 (u16 v1 v0), s16 e1 e0⟩]).wire =
      [0x12, kb, i1, i0, q1, q0, t1, t0, d1, d0, v1, v0, e1, e0] := by
  simp only [Record.wire, linkSlot_of_byte slot, putS16_s16, List.flatMap_cons, List.flatMap_nil, word_u16]
  rfl

/-- What is read as records are bytes of whole records. -/
theorem spellsRecords_of_recordsOf (bytes : List Byte) {rs : List Record} (read : recordsOf bytes = some rs) : spellsRecords bytes := by
  fun_induction recordsOf bytes generalizing rs with
  | case1 => exact ⟨[], nofun, rfl⟩
  | case2 rest ih =>
    obtain ⟨rs', read', -⟩ := Option.map_eq_some_iff.mp read
    exact spellsRecords_cons (r := .peak) trivial (ih read')
  | case3 kb i1 i0 q1 q0 t1 t0 d1 d0 rest k rs' read' slot _ ih =>
    have spelled := spellsRecords_cons (r := .set k (s16 i1 i0) (s16 q1 q0) [⟨BitVec.ofNat 16 (u16 t1 t0), s16 d1 d0⟩])
      ⟨Or.inl rfl, s16_range .., s16_range .., List.forall_mem_singleton.mpr (s16_range ..)⟩ (ih read')
    rw [wire_single slot] at spelled
    exact spelled
  | case6 kb i1 i0 q1 q0 t1 t0 d1 d0 v1 v0 e1 e0 rest k rs' read' slot _ _ ih =>
    have spelled := spellsRecords_cons (r := .set k (s16 i1 i0) (s16 q1 q0)
        [⟨BitVec.ofNat 16 (u16 t1 t0), s16 d1 d0⟩, ⟨BitVec.ofNat 16 (u16 v1 v0), s16 e1 e0⟩])
      ⟨Or.inr rfl, s16_range .., s16_range ..,
        List.forall_mem_cons.mpr ⟨s16_range .., List.forall_mem_singleton.mpr (s16_range ..)⟩⟩ (ih read')
    rw [wire_double slot] at spelled
    exact spelled
  | case4 | case5 | case7 | case8 | case9 => cases read

/-! ### The walk over the records -/

theorem Record.passes_stored {map : SlotMap} {r : Record} : r.stored.passes map ↔ r.passes map := by
  cases r <;> rfl

theorem walkRecords_cons_of_passes {map : SlotMap} {r : Record} (pass : r.passes map) (rs : List Record) :
    walkRecords map (r :: rs) = walkRecords map rs := by
  cases r with
  | peak => rfl
  | set k i q blocks =>
    obtain ⟨e, bound, count⟩ := pass
    simp only [walkRecords, bound]
    exact if_pos count

theorem walkRecords_append_of_pass {map : SlotMap} (before : List Record) (pass : ∀ r ∈ before, r.passes map) (rs : List Record) :
    walkRecords map (before ++ rs) = walkRecords map rs := by
  induction before with
  | nil => rfl
  | cons r before ih =>
    obtain ⟨first, rest⟩ := List.forall_mem_cons.mp pass
    rw [List.cons_append, walkRecords_cons_of_passes first, ih rest]

theorem pass_stored {map : SlotMap} {rs : List Record} (pass : ∀ r ∈ rs, r.passes map) : ∀ r ∈ rs.map Record.stored, r.passes map := by
  intro r mem
  obtain ⟨r', mem', rfl⟩ := List.mem_map.mp mem
  exact Record.passes_stored.mpr (pass r' mem')

theorem walkRecords_of_pass {map : SlotMap} {rs : List Record} (pass : ∀ r ∈ rs, r.passes map) : walkRecords map rs = none := by
  have walked := walkRecords_append_of_pass rs pass []
  rwa [List.append_nil] at walked

/-! ### SET with END clear, and DISCARD -/

theorem Part.setReq_of_unread {p : Part} {m : Motion} {endMark : Bool} {bytes : List Byte} (unread : recordsOf bytes = none) :
    p.setReq m.link endMark bytes = p.refuse m.link .set .badValue := by
  simp only [Part.setReq, Part.onMotion_link, unread]

theorem Part.setReq_of_stop {p : Part} {m : Motion} {endMark : Bool} {bytes : List Byte} {rs : List Record} {r : Reason}
    (read : recordsOf bytes = some rs) (stop : walkRecords (p.binding.maps.get m) rs = some r) :
    p.setReq m.link endMark bytes = p.refuse m.link .set r := by
  simp only [Part.setReq, Part.onMotion_link, read, stop]

theorem Part.setReq_of_full {p : Part} {m : Motion} {endMark : Bool} {bytes : List Byte} {rs : List Record}
    (read : recordsOf bytes = some rs) (walked : walkRecords (p.binding.maps.get m) rs = none)
    (full : 8 < (p.openRecords m).length + rs.length) :
    p.setReq m.link endMark bytes = (p.loseBatch m).refuse m.link .set .batchFull := by
  simp only [Part.setReq, Part.onMotion_link, read, walked]
  exact if_pos full

theorem Part.setReq_of_room {p : Part} {m : Motion} {bytes : List Byte} {rs : List Record}
    (read : recordsOf bytes = some rs) (walked : walkRecords (p.binding.maps.get m) rs = none)
    (room : (p.openRecords m).length + rs.length ≤ 8) :
    p.setReq m.link false bytes = (p.appendRecords m rs).setReplied m false 0 ∧
    p.setReq m.link true bytes =
      ((p.appendRecords m rs).deliver m).1.setReplied m true ((p.appendRecords m rs).deliver m).2 := by
  simp only [Part.setReq, Part.onMotion_link, read, walked]
  exact ⟨if_neg (not_lt.mpr room), if_neg (not_lt.mpr room)⟩

theorem Part.appendRecords_eq (p : Part) (m : Motion) (rs : List Record) :
    p.appendRecords m rs =
      { p with batches := p.batches.set m (if p.openRecords m ++ rs = [] then none else some (p.openRecords m ++ rs)) } := by
  simp only [Part.appendRecords, List.isEmpty_iff]

@[simp] theorem Part.openRecords_appendRecords (p : Part) (m : Motion) (rs : List Record) :
    (p.appendRecords m rs).openRecords m = p.openRecords m ++ rs := by
  rw [Part.appendRecords_eq, Part.openRecords, Two.get_set_same]
  split
  · next empty => exact empty.symm
  · rfl

/-- The two commands of SET are requests with the same judgement but for the END mark. -/
theorem set_commands {i : Instr} {l : Link} {flag : BitVec 7} {bytes : List Byte} (h : i = .set l flag bytes ∨ i = .setEnd l flag bytes)
    (s : State) : ∃ b endMark, requestOf i = some (l, .set, b :: bytes) ∧
      exec i s = .next (s.run (fun p => p.request l (b :: bytes) (fun p => p.setReq l endMark bytes))) := by
  rcases h with rfl | rfl
  · exact ⟨_, _, rfl, rfl⟩
  · exact ⟨_, _, rfl, rfl⟩

/-- Settles O50: the bytes read as records, walked, and appended. -/
theorem setAppendsRecords : Obligations.SetAppendsRecords := by
  refine ⟨fun s m i bytes flag takes short command => ?_, ?_, ?_⟩
  · obtain ⟨b, endMark, request, run⟩ := set_commands command s
    have fits : (b :: bytes).length ≤ 60 := Nat.succ_le_succ short
    refine ⟨fun none => refuses_of_eq takes fits request run (Part.setReq_of_unread ?_), ?_⟩
    · rw [Option.eq_none_iff_forall_ne_some]
      exact fun rs read => none (spellsRecords_of_recordsOf bytes read)
    · rintro rs fit rfl
      have read := recordsOf_wire rs fit
      refine ⟨?_, fun pass full q hq => ?_⟩
      · rintro before k x y blocks after rfl pass
        have walked : walkRecords (s.part.binding.maps.get m) ((before ++ .set k x y blocks :: after).map Record.stored) =
            walkRecords (s.part.binding.maps.get m) (Record.stored (.set k x y blocks) :: after.map Record.stored) := by
          rw [List.map_append, List.map_cons, walkRecords_append_of_pass _ (pass_stored pass)]
        refine ⟨fun unbound => refuses_of_eq takes fits request run (Part.setReq_of_stop read (walked.trans ?_)),
          fun e bound other => refuses_of_eq takes fits request run (Part.setReq_of_stop read (walked.trans ?_))⟩
        · simp only [Record.stored, walkRecords, unbound]
        · simp only [Record.stored, walkRecords, bound]
          exact if_neg other
      · have lost : q = s.part.loseBatch m := hq
        refine answers_of_eq takes fits request run ?_
        rw [lost]
        exact Part.setReq_of_full read (walkRecords_of_pass (pass_stored pass)) (by rw [List.length_map]; exact full)
  · rintro s m rs all flag takes fit short pass rfl room
    refine does_of_eq takes (by exact Nat.succ_le_succ short) rfl rfl ?_
    rw [List.length_append] at room
    rw [(Part.setReq_of_room (recordsOf_wire rs fit) (walkRecords_of_pass (pass_stored pass)) room).1, Part.setReplied,
      Part.openRecords_appendRecords, Part.appendRecords_eq]
    rfl
  · intro s m takes
    refine does_of_eq takes (by simp) rfl rfl ?_
    simp only [Part.discardReq, Part.onMotion_link]
    rfl

end Sys2Proof.Machine

/-! SUPPORT. SET with END set: the marks that PEAK records give, the delivery, and the statement about them. -/

namespace Sys2Proof.Machine

/-! ### Marked and dropped records by place -/

/-- What the record at place `n` of a list gives the delivery: a SET record with the mark of the record before it; `before` says that
the record before the list is a PEAK record. -/
def markAt (before : Bool) (rs : List Record) (n : ℕ) : Option (Record × Bool) :=
  match rs.drop n with
  | .set k i q b :: _ => some (.set k i q b, if n = 0 then before else decide ((rs.drop (n - 1)).head? = some .peak))
  | _ => none

theorem markAt_succ (before : Bool) (r : Record) (rs : List Record) (n : ℕ) :
    markAt before (r :: rs) (n + 1) = markAt (decide (r = .peak)) rs n := by
  unfold markAt
  rw [List.drop_succ_cons]
  cases n with
  | zero => simp
  | succ n => simp

theorem markRecords_eq (before : Bool) (rs : List Record) :
    markRecords before rs = (List.range rs.length).filterMap (markAt before rs) := by
  induction rs generalizing before with
  | nil => rfl
  | cons r rs ih =>
    have later : (List.map Nat.succ (List.range rs.length)).filterMap (markAt before (r :: rs)) = markRecords (decide (r = .peak)) rs := by
      rw [List.filterMap_map, ih]
      exact congrArg (fun f => (List.range rs.length).filterMap f) (funext fun n => markAt_succ before r rs n)
    rw [List.length_cons, List.range_succ_eq_map, List.filterMap_cons, later]
    cases r <;> rfl

/-- Place `n` of a list is a PEAK record that no SET record follows. -/
def droppedAt (rs : List Record) (n : ℕ) : Bool :=
  match rs.drop n with
  | .peak :: .set _ _ _ _ :: _ => false
  | .peak :: _ => true
  | _ => false

theorem droppedPeaks_cons (r : Record) (rs : List Record) :
    droppedPeaks (r :: rs) = (if droppedAt (r :: rs) 0 then 1 else 0) + droppedPeaks rs := by
  cases r with
  | set k i q b => simp [droppedPeaks, droppedAt]
  | peak =>
    match rs with
    | [] => rfl
    | .peak :: rs => rfl
    | .set k i q b :: rs => simp [droppedPeaks, droppedAt]

theorem droppedPeaks_eq (rs : List Record) : droppedPeaks rs = ((List.range rs.length).filter (droppedAt rs)).length := by
  induction rs with
  | nil => rfl
  | cons r rs ih =>
    have later : ((List.map Nat.succ (List.range rs.length)).filter (droppedAt (r :: rs))).length = droppedPeaks rs := by
      rw [List.filter_map, List.length_map, ih]
      rfl
    rw [List.length_cons, List.range_succ_eq_map, List.filter_cons, droppedPeaks_cons, ← later]
    split
    · rw [List.length_cons, Nat.add_comm]
    · rw [Nat.zero_add]

/-! ### The events that dropped PEAK records send -/

theorem Part.sendTimes_eq (p : Part) (l : Link) (k : EventKind) (n : ℕ) :
    p.sendTimes l k n = (fun q => q.send l k none .none)^[n] p := by
  induction n generalizing p with
  | zero => rfl
  | succ n ih => exact ih _

theorem Part.sendTimes_batches (p : Part) (b : Two (Option (List Record))) (l : Link) (k : EventKind) (n : ℕ) :
    ({ p with batches := b } : Part).sendTimes l k n = { p.sendTimes l k n with batches := b } := by
  induction n generalizing p with
  | zero => rfl
  | succ n ih => exact ih (p.send l k none .none)

theorem Part.sendTimes_items (p : Part) (l : Link) (k : EventKind) (n : ℕ) :
    (p.sendTimes l k n).binding = p.binding ∧ (p.sendTimes l k n).ctx = p.ctx ∧ (p.sendTimes l k n).batches = p.batches := by
  induction n generalizing p with
  | zero => exact ⟨rfl, rfl, rfl⟩
  | succ n ih =>
    obtain ⟨binding, ctx, batches⟩ := ih (p.send l k none .none)
    exact ⟨binding.trans (Part.send_binding ..), ctx.trans (Part.send_ctx ..), batches.trans (Part.send_batches ..)⟩

/-! ### What a delivery gives the channels -/

/-- A context that has taken a setpoint, if there is one. -/
def Context.given (x : Context) : Option Setpoint → Context
  | some y => { x with setpoint := some y }
  | none => x

/-- A part whose channels have taken the setpoints `t`. -/
def Part.given (p : Part) (t : Channel → Option Setpoint) : Part :=
  { p with ctx := changedAt p.ctx channels (fun c x => x.given (t c)) }

theorem Part.given_context (p : Part) (t : Channel → Option Setpoint) (c : Channel) :
    (p.given t).ctx.get c = (p.ctx.get c).given (t c) := (changedAt_get ..).trans (if_pos (mem_channels c))

/-- The accumulator of a delivery from `p` in which the channels have taken the setpoints `t`. -/
def delivered (p : Part) (t : Channel → Option Setpoint) (acc : Part × List Channel) : Prop :=
  acc.1 = p.given t ∧ acc.2.Nodup ∧ ∀ c, c ∈ acc.2 ↔ (t c).isSome = true

/-- The setpoints `t` after active channels have taken those of `u`. -/
def takenOver (p : Part) (u t : Channel → Option Setpoint) (c : Channel) : Option Setpoint :=
  if (p.stateOf c).active then (u c).or (t c) else t c

theorem Part.given_stateOf (p : Part) (t : Channel → Option Setpoint) (c : Channel) : (p.given t).stateOf c = p.stateOf c := by
  unfold Part.stateOf
  rw [Part.given_context]
  cases t c <;> rfl

theorem Part.given_none (p : Part) : p.given (fun _ => none) = p :=
  congrArg (fun v => { p with ctx := v }) (Six.ext_get fun c => Part.given_context p _ c)

/-- One channel of a part takes a setpoint. -/
theorem Part.given_modCtx (p : Part) (t : Channel → Option Setpoint) (c : Channel) (y : Setpoint) :
    (p.given t).modCtx c (fun x => { x with setpoint := some y }) = p.given (Function.update t c (some y)) := by
  refine congrArg (fun v => { p with ctx := v }) (Six.ext_get fun d => ?_)
  refine Eq.trans ?_ (Part.given_context p _ d).symm
  rw [Six.get_set]
  by_cases here : c = d
  · subst here
    rw [if_pos rfl, Part.given_context, Function.update_self]
    cases t c <;> rfl
  · rw [if_neg here, Part.given_context, Function.update_of_ne (Ne.symm here)]

/-- The setpoint that the members of a record, zipped with its blocks, give channel `c`. -/
def memberSetpoint (i q : ℤ) (peak : Bool) (zs : List (Member × AngleBlock)) (c : Channel) : Option Setpoint :=
  (zs.find? (fun x => x.1.ch = c)).map (fun x => setpointOf i q x.2 peak)

theorem takenOver_single {p : Part} {t : Channel → Option Setpoint} {i q : ℤ} {peak : Bool} {z : Member × AngleBlock} :
    takenOver p (memberSetpoint i q peak [z]) t =
      if (p.stateOf z.1.ch).active then Function.update t z.1.ch (some (setpointOf i q z.2 peak)) else t := by
  funext c
  unfold takenOver memberSetpoint
  by_cases here : z.1.ch = c
  · subst here
    split <;> simp
  · have other : Function.update t z.1.ch (some (setpointOf i q z.2 peak)) c = t c := Function.update_of_ne (Ne.symm here) ..
    split_ifs <;> simp [here, other]

theorem delivered_member {p : Part} {t : Channel → Option Setpoint} {acc : Part × List Channel} (h : delivered p t acc) (i q : ℤ)
    (peak : Bool) (z : Member × AngleBlock) :
    delivered p (takenOver p (memberSetpoint i q peak [z]) t) (deliverMember i q peak acc z) := by
  obtain ⟨part, nodup, reached⟩ := h
  rw [takenOver_single]
  unfold deliverMember
  rw [part, Part.given_stateOf]
  by_cases active : (p.stateOf z.1.ch).active = true
  · rw [if_pos active, if_pos active]
    have members (c : Channel) : (Function.update t z.1.ch (some (setpointOf i q z.2 peak)) c).isSome = true ↔
        c = z.1.ch ∨ c ∈ acc.2 := by
      rw [reached]
      by_cases here : c = z.1.ch
      · subst here; simp
      · simp [here]
    refine ⟨Part.given_modCtx .., ?_, fun c => ?_⟩
    · dsimp only
      split
      · exact nodup
      · next absent =>
        have absent : z.1.ch ∉ acc.2 := by simpa using absent
        exact nodup.append (List.nodup_singleton _) (by simpa using absent)
    · rw [members]
      dsimp only
      split
      · next present =>
        have present : z.1.ch ∈ acc.2 := by simpa using present
        exact ⟨Or.inr, fun h => h.elim (fun e => e ▸ present) id⟩
      · rw [List.mem_append, List.mem_singleton, or_comm]
  · rw [if_neg active, if_neg active]
    exact ⟨part, nodup, reached⟩

/-- Members of different channels, one after another: a search among them finds what each channel takes. -/
theorem takenOver_cons {p : Part} {t : Channel → Option Setpoint} {i q : ℤ} {peak : Bool} {z : Member × AngleBlock}
    {zs : List (Member × AngleBlock)} (other : z.1.ch ∉ zs.map (fun x => x.1.ch)) :
    takenOver p (memberSetpoint i q peak zs) (takenOver p (memberSetpoint i q peak [z]) t) =
      takenOver p (memberSetpoint i q peak (z :: zs)) t := by
  funext c
  unfold takenOver
  split
  · unfold memberSetpoint
    by_cases here : z.1.ch = c
    · subst here
      have absent : zs.find? (fun x => x.1.ch = z.1.ch) = none := by
        rw [List.find?_eq_none]
        exact fun x mem => by simpa using fun same => other (List.mem_map.mpr ⟨x, mem, same⟩)
      simp [absent]
    · simp [here]
  · rfl

theorem delivered_members {p : Part} (i q : ℤ) (peak : Bool) (zs : List (Member × AngleBlock))
    (nodup : (zs.map (fun x => x.1.ch)).Nodup) {t : Channel → Option Setpoint} {acc : Part × List Channel} (h : delivered p t acc) :
    delivered p (takenOver p (memberSetpoint i q peak zs) t) (zs.foldl (deliverMember i q peak) acc) := by
  induction zs generalizing t acc with
  | nil =>
    have same : takenOver p (memberSetpoint i q peak []) t = t := by
      funext c
      exact ite_self _
    rw [same]
    exact h
  | cons z zs ih =>
    obtain ⟨other, nodup⟩ := List.nodup_cons.mp nodup
    rw [← takenOver_cons other]
    exact ih nodup (delivered_member h i q peak z)

theorem setpointFor_set {map : SlotMap} {k : LinkSlot} {e : SlotEntry} {blocks : List AngleBlock} (bound : map.get k = some e)
    (count : blocks.length = e.members.length) (i q : ℤ) (peak : Bool) (c : Channel) :
    setpointFor map c (.set k i q blocks, peak) = memberSetpoint i q peak (e.members.zip blocks) c := by
  simp only [setpointFor, bound]
  exact (if_pos count).trans rfl

theorem takenOver_none (p : Part) (t : Channel → Option Setpoint) : takenOver p (fun _ => none) t = t := by
  funext c
  exact ite_self _

theorem delivered_record {p : Part} {map : SlotMap} (once : ∀ k e, map.get k = some e → e.chans.Nodup) (r : Record × Bool)
    {t : Channel → Option Setpoint} {acc : Part × List Channel} (h : delivered p t acc) :
    delivered p (takenOver p (fun c => setpointFor map c r) t) (deliverRecord map acc r) := by
  obtain ⟨r, peak⟩ := r
  cases r with
  | peak =>
    have none : (fun c => setpointFor map c (.peak, peak)) = fun _ => Option.none := rfl
    rw [none, takenOver_none]
    exact h
  | set k i q blocks =>
    cases bound : map.get k with
    | none =>
      have none : (fun c => setpointFor map c (.set k i q blocks, peak)) = fun _ => Option.none := by
        simp only [setpointFor, bound]
      rw [none, takenOver_none]
      simp only [deliverRecord, bound]
      exact h
    | some e =>
      by_cases count : blocks.length = e.members.length
      · have chans : (e.members.zip blocks).map (fun x => x.1.ch) = e.chans := by
          have firsts : (e.members.zip blocks).map (fun x => x.1.ch) = ((e.members.zip blocks).map Prod.fst).map (fun m => m.ch) := by
            rw [List.map_map]
            rfl
          rw [firsts, List.map_fst_zip count.ge]
          rfl
        have members := delivered_members i q peak (e.members.zip blocks) (chans ▸ once k e bound) h
        simp only [deliverRecord, bound, funext (setpointFor_set bound count i q peak)]
        rw [if_pos count]
        exact members
      · have none : (fun c => setpointFor map c (.set k i q blocks, peak)) = fun _ => Option.none := by
          simp only [setpointFor, bound, if_neg count]
        rw [none, takenOver_none]
        simp only [deliverRecord, bound, if_neg count]
        exact h

/-- What the records of a batch give the channels: the last of those that reach a channel. -/
theorem delivered_records {p : Part} {map : SlotMap} (once : ∀ k e, map.get k = some e → e.chans.Nodup) (rs : List (Record × Bool))
    {t : Channel → Option Setpoint} {acc : Part × List Channel} (h : delivered p t acc) :
    delivered p (takenOver p (fun c => (rs.filterMap (setpointFor map c)).getLast?) t) (rs.foldl (deliverRecord map) acc) := by
  induction rs generalizing t acc with
  | nil =>
    have none : (fun c => (([] : List (Record × Bool)).filterMap (setpointFor map c)).getLast?) = fun _ => Option.none := rfl
    rw [none, takenOver_none]
    exact h
  | cons r rs ih =>
    have later := ih (delivered_record once r h)
    have same : takenOver p (fun c => (rs.filterMap (setpointFor map c)).getLast?) (takenOver p (fun c => setpointFor map c r) t) =
        takenOver p (fun c => ((r :: rs).filterMap (setpointFor map c)).getLast?) t := by
      funext c
      unfold takenOver
      split
      · dsimp only
        rw [List.filterMap_cons]
        cases first : setpointFor map c r with
        | none => simp
        | some y =>
          rw [List.getLast?_cons]
          cases (rs.filterMap (setpointFor map c)).getLast? <;> rfl
      · rfl
    rw [← same]
    exact later

/-- The number of channels that a delivery reached. -/
theorem delivered_count {p : Part} {t : Channel → Option Setpoint} {acc : Part × List Channel} (h : delivered p t acc) :
    acc.2.length = (channels.filter (fun c => (t c).isSome)).length := by
  obtain ⟨-, nodup, reached⟩ := h
  refine List.Perm.length_eq ((List.perm_ext_iff_of_nodup nodup (nodup_channels.filter _)).mpr fun c => ?_)
  rw [reached, List.mem_filter]
  exact ⟨fun taken => ⟨mem_channels c, taken⟩, fun ⟨_, taken⟩ => taken⟩

/-! ### The delivery of a batch -/

/-- The setpoints that the records of a batch leave with the channels: the last that reaches a channel in CAPTURE, RUN or HOLD. -/
def Part.takenFrom (p : Part) (map : SlotMap) (rs : List Record) (c : Channel) : Option Setpoint :=
  if (p.stateOf c).active then ((markRecords false rs).filterMap (setpointFor map c)).getLast? else none

theorem Part.deliver_eq {q p : Part} {m : Motion} (once : ∀ k e, (q.binding.maps.get m).get k = some e → e.chans.Nodup)
    (sent : q.sendTimes m.link .prefixDropped (droppedPeaks (q.openRecords m)) = p) {t : Channel → Option Setpoint}
    (ht : ∀ c, t c = p.takenFrom (q.binding.maps.get m) (q.openRecords m) c) :
    q.deliver m =
      ({ p.given t with
          batches := p.batches.set m none
          binding := { p.binding with toggles := p.binding.toggles.set m (!p.binding.toggles.get m) } },
        (channels.filter (fun c => (t c).isSome)).length) := by
  have start : delivered p (fun _ => none) (p, []) := ⟨p.given_none.symm, List.nodup_nil, by simp⟩
  have reached := delivered_records once (markRecords false (q.openRecords m)) start
  have same : takenOver p (fun c => ((markRecords false (q.openRecords m)).filterMap
      (setpointFor (q.binding.maps.get m) c)).getLast?) (fun _ => none) = t := by
    funext c
    rw [ht, takenOver, Option.or_none, Part.takenFrom]
  rw [same] at reached
  have count := delivered_count reached
  obtain ⟨part, -, -⟩ := reached
  unfold Part.deliver
  dsimp only
  rw [sent, count, part]
  rfl

/-- Settles O51: the batch after the records are appended, delivered. -/
theorem setEndDeliversBatch : Obligations.SetEndDeliversBatch := by
  rintro s m rs all flag map marked dropped taken p takes sound fit short rfl pass hall room hmarked hdropped htaken rfl
  have once : ∀ k e, (s.part.binding.maps.get m).get k = some e → e.chans.Nodup :=
    fun k e bound => (s.part.bindingSound_iff.mp sound).once (m := m) bound
  have marks : marked = markRecords false all := by
    rw [hmarked, markRecords_eq]
    refine congrArg (fun f => (List.range all.length).filterMap f) (funext fun n => ?_)
    unfold markAt
    match all.drop n with
    | [] | .peak :: _ => rfl
    | .set .. :: _ => cases n <;> simp
  have drops : dropped = droppedPeaks all := by
    rw [hdropped, droppedPeaks_eq]
    refine congrArg (fun f => ((List.range all.length).filter f).length) (funext fun n => ?_)
    unfold droppedAt
    match all.drop n with
    | [] | [.peak] | .peak :: .peak :: _ | .peak :: .set .. :: _ | .set .. :: _ => rfl
  have room' : (s.part.openRecords m).length + (rs.map Record.stored).length ≤ 8 := by
    rw [← List.length_append]
    exact hall ▸ room
  set q := s.part.appendRecords m (rs.map Record.stored) with hq
  have opened : q.openRecords m = all := (Part.openRecords_appendRecords ..).trans hall.symm
  set p := (fun q => q.send m.link .prefixDropped none .none)^[dropped] s.part with hp
  have times : s.part.sendTimes m.link .prefixDropped dropped = p := Part.sendTimes_eq ..
  obtain ⟨binding, ctx, batches⟩ := s.part.sendTimes_items m.link .prefixDropped dropped
  rw [times] at binding ctx batches
  have sent : q.sendTimes m.link .prefixDropped (droppedPeaks (q.openRecords m)) = { p with batches := q.batches } := by
    rw [opened, ← drops, ← times]
    exact s.part.sendTimes_batches q.batches m.link .prefixDropped dropped
  have given (c : Channel) : taken c = Part.takenFrom { p with batches := q.batches } (q.binding.maps.get m) (q.openRecords m) c := by
    rw [htaken, marks, opened, Part.takenFrom]
    unfold Part.stateOf
    rw [ctx]
    rfl
  have delivery := Part.deliver_eq (q := q) once sent given
  have cleared : q.batches.set m none = p.batches.set m none := by
    rw [hq, Part.appendRecords_eq, Two.set_set, batches]
  refine does_of_eq takes (by exact Nat.succ_le_succ short) rfl rfl ?_
  rw [(Part.setReq_of_room (recordsOf_wire rs fit) (walkRecords_of_pass (pass_stored pass)) room').2, ← hq, delivery]
  dsimp only
  rw [cleared]
  simp only [Part.setReplied, Part.openRecords, Two.get_set_same, binding]
  rfl

end Sys2Proof.Machine
